-- ==== Sys2Proof/Word.lean ====
section
/-! DEFINITION. The word types of the block (spec/00_scope.md R12, R14): bytes of text and of bus transfers, 32-bit
command and result words, and four like things (the rows, the columns, the key matrix). -/

namespace Sys2Proof

/-- A byte: a payload byte (R91), a bus byte (R100), a key symbol (R41). -/
abbrev Byte := BitVec 8

/-- A host command word or a result word, CMD_BITS = 32 (R12, R90, R93); also a counter of SEC_BITS = 32 and a time
sample of TIME_BITS = 32 (R12). -/
abbrev Word := BitVec 32

/-- Four like things indexed 0 to 3: the rows or the columns of the 4x4 keypad (R10, R40). -/
structure Four (α : Type) where
  i0 : α
  i1 : α
  i2 : α
  i3 : α
deriving DecidableEq, Repr

/-- Something for every row and column of the keypad (R41, R58). -/
abbrev Grid (α : Type) := Four (Four α)

end Sys2Proof
end

