-- ==== Sys2Proof/Syntax.lean ====
section
/-! DEFINITION. The instructions: one constructor for every row of spec/opcode_table.json (the 32 host commands, the 3
agent events, the 5 CharDisplay micro-operations and the 10 LCD bus encodings), what travels on the command port and on
the LCD bus, and the names decoding refuses by. -/

namespace Sys2Proof

/-- A scroll direction: the bit d of formats SCR and D1, 0 = left and 1 = right (R54, R92, R98, R236). -/
inductive Direction where
  | left
  | right
deriving DecidableEq, Repr

/-- The instructions. Operands are the fields of R92, zero-extended from the word, and the payload bytes of R91. -/
inductive Instr where
  /-- OP 0x01, format N, R130. -/
  | clkConfigure
  /-- OP 0x02, format N, R131. -/
  | clkStart
  /-- OP 0x03, format N, R132. -/
  | clkStop
  /-- OP 0x04, format N, R134. -/
  | clkReset
  /-- OP 0x05, format N, R138. -/
  | clkGetSeconds
  /-- OP 0x06, format N, R139. -/
  | clkGetTotalHalfTicks
  /-- OP 0x07, format H24, R140: the 24-bit handle h, 0 = none. -/
  | clkSetTickCallback (h : BitVec 24)
  /-- OP 0x20, format N, R161. -/
  | kpdInit
  /-- OP 0x21, format N, R164. -/
  | kpdGetKey
  /-- OP 0x22, format N, R169. -/
  | kpdStatus
  /-- OP 0x40, format N, R195. -/
  | lcdInit
  /-- OP 0x41, format B8, R196. -/
  | lcdCommand (b : Byte)
  /-- OP 0x42, format B8, R197. -/
  | lcdWriteChar (b : Byte)
  /-- OP 0x43, format L16, R198: L is the length of the text. -/
  | lcdPrint (text : List Byte)
  /-- OP 0x44, format N, R199. -/
  | lcdClear
  /-- OP 0x45, format N, R200. -/
  | lcdHome
  /-- OP 0x46, format CR, R201. -/
  | lcdSetCursor (col row : Byte)
  /-- OP 0x47, format N, R203. -/
  | lcdDisplayOn
  /-- OP 0x48, format N, R204. -/
  | lcdDisplayOff
  /-- OP 0x49, format N, R205. -/
  | lcdCursorOn
  /-- OP 0x4A, format N, R206. -/
  | lcdCursorOff
  /-- OP 0x4B, format N, R207. -/
  | lcdBlinkOn
  /-- OP 0x4C, format N, R208. -/
  | lcdBlinkOff
  /-- OP 0x60, format SCR, R230: L is the length of the text. -/
  | lcdStartScroll (row : Byte) (dir : Direction) (text : List Byte)
  /-- OP 0x61, format N, R235. -/
  | lcdStopScroll
  /-- OP 0x62, format N, R232. -/
  | lcdUpdateScroll
  /-- OP 0x63, format D1, R236. -/
  | lcdSetScrollDirection (dir : Direction)
  /-- OP 0x64, format N, R237. -/
  | lcdIsScrolling
  /-- OP 0x65, format N, R238. -/
  | lcdGetScrollPosition
  /-- OP 0x70, format G, R241: the slot n and its 8 bitmap bytes. -/
  | lcdCreateChar (slot : Byte) (bitmap : List Byte)
  /-- OP 0x71, format G, R242: the count n and its bitmaps, 8 bytes each. -/
  | lcdCreateChars (count : Byte) (bitmaps : List Byte)
  /-- OP 0x72, format B8, R243. -/
  | lcdWriteCustomChar (slot : Byte)
  /-- The tick handler, a step of TICK, no encoding (R95, R136). -/
  | evTick
  /-- The pin-change handler, a step of PCINT, no encoding (R95, R168). -/
  | evPinchange
  /-- The callback's completion, a step of CB, no encoding (R95, R268). -/
  | evCbDone
  /-- Micro-operation, no encoding (R95, R190). -/
  | pulseEnable
  /-- Micro-operation, no encoding (R95, R191). -/
  | sendNibble (v : Byte)
  /-- Micro-operation, no encoding (R95, R192); rs is the register-select level. -/
  | sendByte (rs : Bool) (b : Byte)
  /-- Micro-operation, no encoding (R95, R193). -/
  | command (b : Byte)
  /-- Micro-operation, no encoding (R95, R194). -/
  | writeChar (b : Byte)
  /-- Bus command byte 0x01 (R101). -/
  | busClearDisplay
  /-- Bus command byte 0b0000001x, bit 0 a don't-care (R102). -/
  | busReturnHome (x : Bool)
  /-- Bus command byte 0b000001 ID S (R103). -/
  | busEntryModeSet (id s : Bool)
  /-- Bus command byte 0b00001 D C B (R104). -/
  | busDisplayControl (d c b : Bool)
  /-- Bus command byte 0b001 DL N F xx (R105); x are the two bits R105 prints as 00 and the table's mask leaves open. -/
  | busFunctionSet (dl n f : Bool) (x : BitVec 2)
  /-- Bus command byte 0x40 | a (R106). -/
  | busSetCgramAddr (a : BitVec 6)
  /-- Bus command byte 0x80 | a (R107). -/
  | busSetDdramAddr (a : BitVec 7)
  /-- Bus data byte, RS = 1 (R110). -/
  | busDataWrite (d : Byte)
  /-- The lone nibble 0x3 (R108). -/
  | busWakeNibble
  /-- The lone nibble 0x2 (R109). -/
  | bus4BitNibble
deriving DecidableEq, Repr

/-- What travels on the command port: a word and its payload (R60, R90). -/
structure Command where
  word : Word
  payload : List Byte
deriving DecidableEq, Repr

/-- What travels on the LCD bus: a byte with its register-select level (R100), or a lone nibble with RS = 0 (R100,
R108, R109). -/
inductive BusTransfer where
  | byte (rs : Bool) (b : Byte)
  | nibble (v : BitVec 4)
deriving DecidableEq, Repr

/-- An encoding of either kind (spec/30_encoding.md). -/
inductive Code where
  | host (c : Command)
  | bus (t : BusTransfer)
deriving DecidableEq, Repr

/-- The operand formats of R92. -/
inductive Format where
  | n
  | b8
  | cr
  | h24
  | l16
  | scr
  | d1
  | g
deriving DecidableEq, Repr

/-- The refusal reasons of R264. -/
inductive Reason where
  | illegalCommand
  | badPayload
  | notInitialised
  | reInit
  | operandRange
  | badConfig
deriving DecidableEq, Repr

/-- The two fault kinds of R262. -/
inductive FaultKind where
  | tickOverrun
  | callbackReentry
deriving DecidableEq, Repr

end Sys2Proof
end

