-- ==== Sys2Proof/WellFormed.lean ====
section
/-! DEFINITION. The instructions an encoding can carry: the payload lengths of R91 and R92. Operand ranges (column, row,
slot, count) are checks of the operations, not of the decoder (R92). -/

namespace Sys2Proof

/-- The payload of format L16 has the length of a 16-bit L (R92). -/
def wfText (text : List Byte) : Bool := decide (text.length < 2 ^ 16)

/-- The payload of format SCR has the length of an 8-bit L (R92). -/
def wfScrollText (text : List Byte) : Bool := decide (text.length < 2 ^ 8)

/-- LCD_CREATE_CHAR carries exactly 8 bytes (R92). -/
def wfBitmap (bitmap : List Byte) : Bool := bitmap.length == 8

/-- LCD_CREATE_CHARS carries n*8 bytes if n is at most 8, and any length otherwise (R92). -/
def wfBitmaps (count : Byte) (bitmaps : List Byte) : Bool :=
  decide (8 < count.toNat) || bitmaps.length == 8 * count.toNat

/-- An instruction whose operands some encoding carries; the instructions without a payload all are. -/
def Instr.wf (i : Instr) : Bool :=
  match i with
  | .lcdPrint text => wfText text
  | .lcdStartScroll _ _ text => wfScrollText text
  | .lcdCreateChar _ bitmap => wfBitmap bitmap
  | .lcdCreateChars count bitmaps => wfBitmaps count bitmaps
  | .clkConfigure | .clkStart | .clkStop | .clkReset | .clkGetSeconds | .clkGetTotalHalfTicks | .clkSetTickCallback _
  | .kpdInit | .kpdGetKey | .kpdStatus
  | .lcdInit | .lcdCommand _ | .lcdWriteChar _ | .lcdClear | .lcdHome | .lcdSetCursor _ _
  | .lcdDisplayOn | .lcdDisplayOff | .lcdCursorOn | .lcdCursorOff | .lcdBlinkOn | .lcdBlinkOff
  | .lcdStopScroll | .lcdUpdateScroll | .lcdSetScrollDirection _ | .lcdIsScrolling | .lcdGetScrollPosition
  | .lcdWriteCustomChar _
  | .evTick | .evPinchange | .evCbDone
  | .pulseEnable | .sendNibble _ | .sendByte _ _ | .command _ | .writeChar _
  | .busClearDisplay | .busReturnHome _ | .busEntryModeSet _ _ | .busDisplayControl _ _ _ | .busFunctionSet _ _ _ _
  | .busSetCgramAddr _ | .busSetDdramAddr _ | .busDataWrite _ | .busWakeNibble | .bus4BitNibble => true

end Sys2Proof
end

