-- ==== Sys2Proof/Decode.lean ====
section
/-! DEFINITION. The decoder of host commands and of LCD bus transfers, total and refusing by name, and after it the
encoder, both from spec/30_encoding.md. -/

namespace Sys2Proof

/-! Fields of the command word (R90). -/

/-- OP = w[31:24] (R90). -/
def opField (w : Word) : Byte := w.extractLsb' 24 8
/-- A = w[23:16] (R90). -/
def aField (w : Word) : Byte := w.extractLsb' 16 8
/-- B = w[15:8] (R90). -/
def bField (w : Word) : Byte := w.extractLsb' 8 8
/-- C = w[7:0] (R90). -/
def cField (w : Word) : Byte := w.extractLsb' 0 8
/-- h = w[23:0] of format H24 (R92). -/
def hField (w : Word) : BitVec 24 := w.extractLsb' 0 24
/-- L = w[15:0] of format L16 (R92). -/
def lField (w : Word) : BitVec 16 := w.extractLsb' 0 16

/-- A word from its four fields (R90). -/
def packWord (op a b c : Byte) : Word := op ++ a ++ b ++ c

/-- The direction a bit d stands for: 0 is left, 1 is right (R98, R236). -/
def directionOfBit (d : Bool) : Direction := if d then .right else .left

/-- The bit d of a direction (R98, R236). -/
def bitOfDirection : Direction → Bool
  | .left => false
  | .right => true

/-- An operand byte of one bit: seven reserved zeros and d (formats SCR and D1 of R92). -/
def dByte (d : Bool) : Byte := (BitVec.ofBool d).setWidth 8

/-! Host commands. -/

/-- What the decoder demands of a payload's length (R92). -/
inductive PayloadLength where
  | exactly (n : Nat)
  | any
deriving DecidableEq, Repr

/-- A row of the opcode map (R94): the format, the payload length the word demands, the instruction. -/
structure HostRow where
  format : Format
  length : Word → PayloadLength
  build : Word → List Byte → Instr

/-- A row whose command carries no payload. -/
def bareRow (f : Format) (build : Word → Instr) : HostRow :=
  ⟨f, fun _ => .exactly 0, fun w _ => build w⟩

/-- The opcode map of R94; an OP value with no row is unassigned (R96). -/
def hostRow (op : Nat) : Option HostRow :=
  match op with
  | 0x01 => some (bareRow .n fun _ => .clkConfigure)
  | 0x02 => some (bareRow .n fun _ => .clkStart)
  | 0x03 => some (bareRow .n fun _ => .clkStop)
  | 0x04 => some (bareRow .n fun _ => .clkReset)
  | 0x05 => some (bareRow .n fun _ => .clkGetSeconds)
  | 0x06 => some (bareRow .n fun _ => .clkGetTotalHalfTicks)
  | 0x07 => some (bareRow .h24 fun w => .clkSetTickCallback (hField w))
  | 0x20 => some (bareRow .n fun _ => .kpdInit)
  | 0x21 => some (bareRow .n fun _ => .kpdGetKey)
  | 0x22 => some (bareRow .n fun _ => .kpdStatus)
  | 0x40 => some (bareRow .n fun _ => .lcdInit)
  | 0x41 => some (bareRow .b8 fun w => .lcdCommand (cField w))
  | 0x42 => some (bareRow .b8 fun w => .lcdWriteChar (cField w))
  | 0x43 => some ⟨.l16, fun w => .exactly (lField w).toNat, fun _ p => .lcdPrint p⟩
  | 0x44 => some (bareRow .n fun _ => .lcdClear)
  | 0x45 => some (bareRow .n fun _ => .lcdHome)
  | 0x46 => some (bareRow .cr fun w => .lcdSetCursor (bField w) (cField w))
  | 0x47 => some (bareRow .n fun _ => .lcdDisplayOn)
  | 0x48 => some (bareRow .n fun _ => .lcdDisplayOff)
  | 0x49 => some (bareRow .n fun _ => .lcdCursorOn)
  | 0x4A => some (bareRow .n fun _ => .lcdCursorOff)
  | 0x4B => some (bareRow .n fun _ => .lcdBlinkOn)
  | 0x4C => some (bareRow .n fun _ => .lcdBlinkOff)
  | 0x60 => some ⟨.scr, fun w => .exactly (cField w).toNat,
      fun w p => .lcdStartScroll (aField w) (directionOfBit ((bField w).getLsbD 0)) p⟩
  | 0x61 => some (bareRow .n fun _ => .lcdStopScroll)
  | 0x62 => some (bareRow .n fun _ => .lcdUpdateScroll)
  | 0x63 => some (bareRow .d1 fun w => .lcdSetScrollDirection (directionOfBit ((cField w).getLsbD 0)))
  | 0x64 => some (bareRow .n fun _ => .lcdIsScrolling)
  | 0x65 => some (bareRow .n fun _ => .lcdGetScrollPosition)
  | 0x70 => some ⟨.g, fun _ => .exactly 8, fun w p => .lcdCreateChar (cField w) p⟩
  | 0x71 => some ⟨.g, fun w => if (cField w).toNat ≤ 8 then .exactly (8 * (cField w).toNat) else .any,
      fun w p => .lcdCreateChars (cField w) p⟩
  | 0x72 => some (bareRow .b8 fun w => .lcdWriteCustomChar (cField w))
  | _ => none

/-- The reserved bits of a format are all 0 (R92). -/
def reservedClear (f : Format) (w : Word) : Bool :=
  match f with
  | .n => aField w == 0 && bField w == 0 && cField w == 0
  | .b8 => aField w == 0 && bField w == 0
  | .cr => aField w == 0
  | .h24 => true
  | .l16 => aField w == 0
  | .scr => (bField w).extractLsb' 1 7 == 0
  | .d1 => aField w == 0 && bField w == 0 && (cField w).extractLsb' 1 7 == 0
  | .g => aField w == 0 && bField w == 0

/-- A payload has the length its command demands (R91). -/
def PayloadLength.fits (l : PayloadLength) (p : List Byte) : Bool :=
  match l with
  | .exactly n => p.length == n
  | .any => true

/-- Decoding a host command (R97), with the first two priorities of R281: IllegalCommand for an unassigned OP or a
reserved bit (R96), then BadPayload for the payload's length (R91). -/
def decodeHost (c : Command) : Except Reason Instr :=
  match hostRow (opField c.word).toNat with
  | none => .error .illegalCommand
  | some row =>
    if reservedClear row.format c.word then
      if (row.length c.word).fits c.payload then .ok (row.build c.word c.payload) else .error .badPayload
    else .error .illegalCommand

/-! LCD bus transfers (R100 to R111). -/

/-- Why a bus transfer is no row of the table: a command byte (0x00, or 0x10..0x1F of R111) or a lone nibble that no
rule names. -/
inductive BusError where
  | unassignedByte
  | unassignedNibble
deriving DecidableEq, Repr

/-- The command byte read from its leading 1 (R101 to R107). -/
def decodeBusCommand (b : Byte) : Except BusError Instr :=
  if b.getLsbD 7 then .ok (.busSetDdramAddr (b.extractLsb' 0 7))
  else if b.getLsbD 6 then .ok (.busSetCgramAddr (b.extractLsb' 0 6))
  else if b.getLsbD 5 then .ok (.busFunctionSet (b.getLsbD 4) (b.getLsbD 3) (b.getLsbD 2) (b.extractLsb' 0 2))
  else if b.getLsbD 4 then .error .unassignedByte
  else if b.getLsbD 3 then .ok (.busDisplayControl (b.getLsbD 2) (b.getLsbD 1) (b.getLsbD 0))
  else if b.getLsbD 2 then .ok (.busEntryModeSet (b.getLsbD 1) (b.getLsbD 0))
  else if b.getLsbD 1 then .ok (.busReturnHome (b.getLsbD 0))
  else if b.getLsbD 0 then .ok .busClearDisplay
  else .error .unassignedByte

/-- Decoding a bus transfer: RS = 1 is data (R110), RS = 0 a command (R101 to R107), a lone nibble the wake or the
switch nibble (R108, R109). -/
def decodeBus (t : BusTransfer) : Except BusError Instr :=
  match t with
  | .byte true d => .ok (.busDataWrite d)
  | .byte false b => decodeBusCommand b
  | .nibble v =>
    if v = 0x3#4 then .ok .busWakeNibble else if v = 0x2#4 then .ok .bus4BitNibble else .error .unassignedNibble

/-- The instruction an encoding stands for, if any. -/
def decode (c : Code) : Option Instr :=
  match c with
  | .host c => (decodeHost c).toOption
  | .bus t => (decodeBus t).toOption

/-! The encoder. -/

/-- A command of format N (R92). -/
def encodeN (op : Byte) : Option Code := some (.host ⟨packWord op 0 0 0, []⟩)

/-- A command with one operand byte in C: formats B8 and D1 (R92). -/
def encodeC (op c : Byte) : Option Code := some (.host ⟨packWord op 0 0 c, []⟩)

/-- A bus command byte (RS = 0). -/
def encodeBusCommand (b : Byte) : Option Code := some (.bus (.byte false b))

/-- The encoding of an instruction; none for the internal operations of R95. -/
def encode (i : Instr) : Option Code :=
  match i with
  | .clkConfigure => encodeN 0x01#8
  | .clkStart => encodeN 0x02#8
  | .clkStop => encodeN 0x03#8
  | .clkReset => encodeN 0x04#8
  | .clkGetSeconds => encodeN 0x05#8
  | .clkGetTotalHalfTicks => encodeN 0x06#8
  | .clkSetTickCallback h => some (.host ⟨0x07#8 ++ h, []⟩)
  | .kpdInit => encodeN 0x20#8
  | .kpdGetKey => encodeN 0x21#8
  | .kpdStatus => encodeN 0x22#8
  | .lcdInit => encodeN 0x40#8
  | .lcdCommand b => encodeC 0x41#8 b
  | .lcdWriteChar b => encodeC 0x42#8 b
  | .lcdPrint text => some (.host ⟨0x43#8 ++ 0x00#8 ++ BitVec.ofNat 16 text.length, text⟩)
  | .lcdClear => encodeN 0x44#8
  | .lcdHome => encodeN 0x45#8
  | .lcdSetCursor col row => some (.host ⟨packWord 0x46#8 0 col row, []⟩)
  | .lcdDisplayOn => encodeN 0x47#8
  | .lcdDisplayOff => encodeN 0x48#8
  | .lcdCursorOn => encodeN 0x49#8
  | .lcdCursorOff => encodeN 0x4A#8
  | .lcdBlinkOn => encodeN 0x4B#8
  | .lcdBlinkOff => encodeN 0x4C#8
  | .lcdStartScroll row dir text =>
    some (.host ⟨packWord 0x60#8 row (dByte (bitOfDirection dir)) (BitVec.ofNat 8 text.length), text⟩)
  | .lcdStopScroll => encodeN 0x61#8
  | .lcdUpdateScroll => encodeN 0x62#8
  | .lcdSetScrollDirection dir => encodeC 0x63#8 (dByte (bitOfDirection dir))
  | .lcdIsScrolling => encodeN 0x64#8
  | .lcdGetScrollPosition => encodeN 0x65#8
  | .lcdCreateChar slot bitmap => some (.host ⟨packWord 0x70#8 0 0 slot, bitmap⟩)
  | .lcdCreateChars count bitmaps => some (.host ⟨packWord 0x71#8 0 0 count, bitmaps⟩)
  | .lcdWriteCustomChar slot => encodeC 0x72#8 slot
  | .evTick | .evPinchange | .evCbDone => none
  | .pulseEnable | .sendNibble _ | .sendByte _ _ | .command _ | .writeChar _ => none
  | .busClearDisplay => encodeBusCommand 0x01#8
  | .busReturnHome x => encodeBusCommand (0b0000001#7 ++ BitVec.ofBool x)
  | .busEntryModeSet id s => encodeBusCommand (0b000001#6 ++ BitVec.ofBool id ++ BitVec.ofBool s)
  | .busDisplayControl d c b => encodeBusCommand (0b00001#5 ++ BitVec.ofBool d ++ BitVec.ofBool c ++ BitVec.ofBool b)
  | .busFunctionSet dl n f x =>
    encodeBusCommand (0b001#3 ++ BitVec.ofBool dl ++ BitVec.ofBool n ++ BitVec.ofBool f ++ x)
  | .busSetCgramAddr a => encodeBusCommand (0b01#2 ++ a)
  | .busSetDdramAddr a => encodeBusCommand (0b1#1 ++ a)
  | .busDataWrite d => some (.bus (.byte true d))
  | .busWakeNibble => some (.bus (.nibble 0x3#4))
  | .bus4BitNibble => some (.bus (.nibble 0x2#4))

/-! Words of the opcode table. -/

/-- The payload that the word demands, of zeros: the operand bytes above the table's bits (R91). -/
def zeroPayload (w : Word) : List Byte :=
  match hostRow (opField w).toNat with
  | none => []
  | some row =>
    match row.length w with
    | .exactly n => List.replicate n 0
    | .any => []

/-- The RS line that goes with an 8-bit row of the table, whose bits leave RS out: 0 where a command row matches the
byte, 1 where only BUS_DATA_WRITE does (R110, R111; log 12). -/
def rsOfTableByte (b : Byte) : Bool :=
  match decodeBusCommand b with
  | .ok _ => false
  | .error _ => true

/-- The encoding that nbits table bits w stand for: 32 bits are a host command word, whose payload bytes are zeros; 8
bits are a bus byte; 4 bits are a lone nibble (log 12). -/
def codeOfTableWord (nbits w : Nat) : Option Code :=
  if nbits = 32 then some (.host ⟨BitVec.ofNat 32 w, zeroPayload (BitVec.ofNat 32 w)⟩)
  else if nbits = 8 then some (.bus (.byte (rsOfTableByte (BitVec.ofNat 8 w)) (BitVec.ofNat 8 w)))
  else if nbits = 4 then some (.bus (.nibble (BitVec.ofNat 4 w)))
  else none

/-- The instruction the decoder reads from the bits w of a row of spec/opcode_table.json. -/
def decodeTableWord (nbits w : Nat) : Option Instr :=
  (codeOfTableWord nbits w).bind decode

end Sys2Proof
end

