-- ==== Sys2Proof/Config.lean ====
section
/-! DEFINITION. What an implementation fixes (spec/00_scope.md R10 to R13): the fixed parameters as definitions, the
record of the parameters a model takes as arguments, its constraints, and the free values that stand for the parameters
and environment values no source gives (opaque constants: nothing can be proved of their values). -/

namespace Sys2Proof

/-! Fixed parameters, R10 and R12. -/

/-- KP_ROWS (R10). -/
def Config.kpRows : Nat := 4
/-- KP_COLS (R10). -/
def Config.kpCols : Nat := 4
/-- LCD_COLS (R10). -/
def Config.lcdCols : Nat := 16
/-- LCD_ROWS (R10): the visible rows; no rule of the protocol reads it (90_conflicts C12). -/
def Config.lcdRows : Nat := 2
/-- ROWS_ADDRESSABLE (R12): the row indices that setCursor and startScroll accept. -/
def Config.rowsAddressable : Nat := 4
/-- GLYPH_SLOTS (R10). -/
def Config.glyphSlots : Nat := 8
/-- T_LONG_MIN_US (R10). -/
def Config.tLongMinUs : Nat := 1520
/-- NOKEY (R12): the null-key sentinel. -/
def Config.noKey : Byte := 0x00#8

/-- The mode index m of the Enable-pulse delays (R13, R210). -/
inductive Mode where
  | real
  | sim
deriving DecidableEq, Repr

/-- A delay in microseconds for each mode (R13). -/
structure PerMode where
  real : Nat
  sim : Nat
deriving DecidableEq, Repr

/-- The pin bindings of R13: the physical pin that carries each line. No rule reads them. -/
structure PinBinding where
  rs : Nat
  e : Nat
  d4 : Nat
  d5 : Nat
  d6 : Nat
  d7 : Nat
  row : Four Nat
  col : Four Nat
deriving DecidableEq, Repr

/-- The parameters a model takes as arguments: those with a source default (R11) and the open ones (R13). -/
structure Config where
  tickHz : Nat
  debounceMs : Nat
  keymap : Grid Byte
  tSettleUs : Nat
  simMode : Bool
  tAsUs : PerMode
  tPwUs : PerMode
  tHUs : PerMode
  tExecUs : Nat
  tLongUs : Nat
  tPowerOnUs : Nat
  tWake1Us : Nat
  tWake2Us : Nat
  tWake3Us : Nat
  maxText : Nat
  maxScrollLen : Nat
  pins : PinBinding
deriving DecidableEq, Repr

/-- Every one of four keys differs from NOKEY (R41). -/
def Config.rowNonZero (r : Four Byte) : Bool :=
  r.i0 != Config.noKey && r.i1 != Config.noKey && r.i2 != Config.noKey && r.i3 != Config.noKey

/-- Every entry of the key map differs from NOKEY (R13, R41). -/
def Config.keymapNonZero (k : Grid Byte) : Bool :=
  Config.rowNonZero k.i0 && Config.rowNonZero k.i1 && Config.rowNonZero k.i2 && Config.rowNonZero k.i3

/-- A simulation-mode delay is at least the real one (R13, R210). -/
def PerMode.simLonger (t : PerMode) : Bool := decide (t.real ≤ t.sim)

/-- The constraints of R13 and R41. A configuration that breaks one is refused with BadConfig (R264). -/
def Config.valid (c : Config) : Bool :=
  Config.keymapNonZero c.keymap
    && c.tAsUs.simLonger && c.tPwUs.simLonger && c.tHUs.simLonger
    && decide (Config.tLongMinUs ≤ c.tLongUs)
    && decide (c.tWake2Us ≤ c.tWake1Us) && decide (c.tWake3Us ≤ c.tWake2Us) && decide (c.tWake3Us < c.tWake1Us)
    && decide (16 ≤ c.maxText) && decide (17 ≤ c.maxScrollLen)

/-! Free values. Each stands for a value no source gives (R13, 92 D5, D50) or for the environment's choice (R290). -/

/-- A free byte for the key symbol at a row and a column (R13, R41; log 5). -/
opaque Config.freeKey : Nat → Nat → Byte
/-- A free number for the n-th open delay, length or pin number of R13 (log 5). -/
opaque Config.freeNat : Nat → Nat
/-- The open parameter SIM_MODE of R13 (log 5). -/
opaque Config.freeSimMode : Bool
/-- Whether the key at a row and a column is closed at reset: any set (R58, R290; log 7). -/
opaque Config.freePressed : Nat → Nat → Bool
/-- The millisecond time source at reset: any natural number (R59, R290; log 7). -/
opaque Config.freeTimeMs : Nat
/-- A byte read past the end of the scroll text, which only a state no run reaches can do (R56; log 21). -/
opaque Config.freeByte : Nat → Byte

/-- The period in milliseconds of a tick rate that does not divide 1000, for which no rule gives a rounding, and of the rate
0, which no rule forbids (R11, R135, 92 D49; log 22). -/
opaque Config.freePeriodMs : Nat → Nat

/-- TICK_PERIOD_MS = 1000 / TICK_HZ where TICK_HZ divides 1000 (R11, 92 D49), else a free value (DESIGN CHOICE, log 22);
read by the premise TickPeriodic only. -/
def Config.tickPeriodMs (c : Config) : Nat :=
  if 1000 % c.tickHz = 0 then 1000 / c.tickHz else Config.freePeriodMs c.tickHz

/-- A free key symbol, kept non-zero as R13 asks. -/
def Config.boardKey (r c : Nat) : Byte :=
  if Config.freeKey r c = Config.noKey then 0x01#8 else Config.freeKey r c

/-- One row of the free key map. -/
def Config.boardKeyRow (r : Nat) : Four Byte :=
  ⟨Config.boardKey r 0, Config.boardKey r 1, Config.boardKey r 2, Config.boardKey r 3⟩

/-- A free pair of delays with sim at least real, as R13 asks. -/
def Config.boardDelay (n : Nat) : PerMode :=
  ⟨Config.freeNat n, Config.freeNat n + Config.freeNat (n + 1)⟩

/-- The configuration of the block that stands at reset: the source defaults of R11, and for each open parameter of R13
a free value within its constraints (log 5). Every valid choice of the open parameters is an instance of it. -/
def Config.board : Config where
  tickHz := 2
  debounceMs := 200
  keymap := ⟨Config.boardKeyRow 0, Config.boardKeyRow 1, Config.boardKeyRow 2, Config.boardKeyRow 3⟩
  tSettleUs := Config.freeNat 0
  simMode := Config.freeSimMode
  tAsUs := Config.boardDelay 1
  tPwUs := Config.boardDelay 3
  tHUs := Config.boardDelay 5
  tExecUs := Config.freeNat 7
  tLongUs := Config.tLongMinUs + Config.freeNat 8
  tPowerOnUs := Config.freeNat 9
  tWake3Us := Config.freeNat 10
  tWake2Us := Config.freeNat 10 + Config.freeNat 11
  tWake1Us := Config.freeNat 10 + Config.freeNat 11 + (if Config.freeNat 11 = 0 then Config.freeNat 12 + 1 else Config.freeNat 12)
  maxText := 16 + Config.freeNat 13
  maxScrollLen := 17 + Config.freeNat 14
  pins :=
    { rs := Config.freeNat 15, e := Config.freeNat 16
      d4 := Config.freeNat 17, d5 := Config.freeNat 18, d6 := Config.freeNat 19, d7 := Config.freeNat 20
      row := ⟨Config.freeNat 21, Config.freeNat 22, Config.freeNat 23, Config.freeNat 24⟩
      col := ⟨Config.freeNat 25, Config.freeNat 26, Config.freeNat 27, Config.freeNat 28⟩ }

end Sys2Proof
end

