-- ==== Sys2Proof/Machine/State.lean ====
section
/-! DEFINITION. The state of the block as plain data (spec/10_state.md), the outcomes a step can have, and the state
after reset (spec/70_reset_and_hazards.md R290, R291). -/

namespace Sys2Proof.Machine

/-! Trace events (R16). -/

/-- The level of an output pin: 0, 1, or U, undriven (R48, R50). -/
inductive Level where
  | low
  | high
  | undriven
deriving DecidableEq, Repr

/-- The output pins (R16). -/
inductive Pin where
  | rs
  | e
  | d4
  | d5
  | d6
  | d7
  | row (i : BitVec 2)
deriving DecidableEq, Repr

/-- The parameter a Wait names (R13, R16; log 10). -/
inductive Delay where
  | settle
  | as (m : Mode)
  | pw (m : Mode)
  | h (m : Mode)
  | exec
  | long
  | powerOn
  | wake1
  | wake2
  | wake3
deriving DecidableEq, Repr

/-- The trace events of R16. A now event is kept apart from S.trace, in the samples (log 9). -/
inductive Event where
  | out (p : Pin) (b : Bool)
  | wait (t : Delay)
  | inCols (c : BitVec 4)
  | now (t : Word)
  | callback (h : BitVec 24)
deriving DecidableEq, Repr

/-! The three sub-blocks. -/

/-- ClockState (R32 to R37). -/
structure Clock where
  secondsElapsed : Word
  halfSecondPhase : BitVec 1
  running : Bool
  configured : Bool
  callback : BitVec 24
  cbActive : Bool
deriving DecidableEq, Repr

/-- The phase of an in-flight KPD_GET_KEY (R47). -/
inductive GkPhase where
  | idle
  | switched
deriving DecidableEq, Repr

/-- KeypadState (R42 to R47); KP.keyMap of R41 is the configuration's. -/
structure Keypad where
  currentRow : BitVec 2
  keyDetectedFlag : Bool
  lastDebounceTimestamp : Word
  initialised : Bool
  pcPending : Bool
  gkPhase : GkPhase
  gkTime : Word
deriving DecidableEq, Repr

/-- The display-control shadow: display on, cursor on, blink on (R53). -/
structure DispCtl where
  d : Bool
  c : Bool
  b : Bool
deriving DecidableEq, Repr

/-- The scroll states (R54, R239). -/
inductive ScrollMode where
  | idle
  | static
  | scrolling
deriving DecidableEq, Repr

/-- DisplayState but for the pins (R51 to R55). -/
structure Display where
  simMode : Bool
  initialised : Bool
  dispCtl : DispCtl
  scrollMode : ScrollMode
  scrollText : List Byte
  scrollPosition : Nat
  scrollRow : BitVec 2
  scrollDirection : Direction
  glyphCount : Nat
deriving DecidableEq, Repr

/-- S.pin: the levels of the output pins (R48, R50). -/
structure Pins where
  rs : Level
  e : Level
  d4 : Level
  d5 : Level
  d6 : Level
  d7 : Level
  row : Four Level
deriving DecidableEq, Repr

/-! Environment, bookkeeping and inputs. -/

/-- ENV: the keys currently closed, by row and column, and the millisecond time source (R58, R59). -/
structure Env where
  pressed : Grid Bool
  timeMs : Nat
deriving DecidableEq, Repr

/-- S.faults: the set of recorded fault kinds (R57, R262). -/
structure FaultSet where
  tickOverrun : Bool
  callbackReentry : Bool
deriving DecidableEq, Repr

/-- The two execution contexts a host command is issued from (R266, R269). -/
inductive Context where
  | mainFlow
  | callback
deriving DecidableEq, Repr

/-- What the result port answers a command: a result word (R93) or a refusal reason (R264), and the context it answers.
A faulted command has no reply (R263). -/
inductive Reply where
  | result (x : Context) (v : Word)
  | refused (x : Context) (r : Reason)
deriving DecidableEq, Repr

/-- An entry of the schedule: the agent given the next step (R9, R81; log 1). -/
inductive Choice where
  /-- HOST: resumes a suspended KPD_GET_KEY, or issues the next command of cmd. -/
  | host
  /-- TICK: EV_TICK. -/
  | tick
  /-- PCINT: EV_PINCHANGE. -/
  | pinChange
  /-- CB: issues the next command of cbCmd. -/
  | cb
  /-- CB: EV_CB_DONE. -/
  | cbDone
  /-- ENV: replaces the set of pressed keys (R58). -/
  | press (keys : Grid Bool)
  /-- ENV: lets the millisecond time source advance (R59). -/
  | passTime (ms : Nat)
  /-- No agent of the spec: the CharDisplay engine makes one bus transfer alone (log 11). -/
  | bus (t : BusTransfer)
deriving DecidableEq, Repr

/-- The state of the block, of its environment, and the inputs waiting for it. timeSamples are the Now events of R16, each
as the number of events of trace before it and its value (log 9). -/
structure State where
  cfg : Config
  clk : Clock
  kp : Keypad
  lcd : Display
  pin : Pins
  trace : List Event
  timeSamples : List (Nat × Word)
  faults : FaultSet
  refused : Bool
  issued : List (Context × Command)
  replies : List Reply
  env : Env
  cmd : List Command
  cbCmd : List Command
  sched : List Choice
deriving DecidableEq, Repr

/-- The faults that stop the model. -/
inductive Fault where
  /-- Raised by step when a fault kind is recorded in S.faults: the block is stuck and no agent takes a step (R263).
  Safe: the spec gives no further step either. -/
  | stuck
deriving DecidableEq, Repr

/-- The refusals of the model (the spec's refuse(r) is a next state, R264; log 4). -/
inductive Refusal where
  /-- Raised by exec for an instruction that has no meaning yet; no arm does. Safe. -/
  | notModelled (mnemonic : String)
  /-- Raised by State.construct: the configuration breaks a constraint of R13 or R41, and no initial state is built
  (R264, BadConfig). Safe: the spec refuses too. -/
  | badConfig
  /-- Raised by the model's own bus input when the transfer is no row of the opcode table (R111; log 11). Safe: no
  agent of the spec gives that input. -/
  | unassignedTransfer
deriving DecidableEq, Repr

/-- What a meaning or a step answers. -/
abbrev Outcome := Host.Outcome State Fault Refusal

/-! Reset (R290, R291). -/

/-- The state after construction from a configuration, with the environment's initial pressed keys and time (R291). The
shadow dispCtl, which the spec leaves unspecified and unobservable, is all 0 (DESIGN CHOICE, log 8). -/
def State.ofConfig (c : Config) (pressed : Grid Bool) (timeMs : Nat) : State where
  cfg := c
  clk :=
    { secondsElapsed := 0, halfSecondPhase := 0, running := false, configured := false, callback := 0, cbActive := false }
  kp :=
    { currentRow := 0, keyDetectedFlag := false, lastDebounceTimestamp := 0, initialised := false, pcPending := false,
      gkPhase := .idle, gkTime := 0 }
  lcd :=
    { simMode := c.simMode, initialised := false, dispCtl := ⟨false, false, false⟩, scrollMode := .idle, scrollText := [],
      scrollPosition := 0, scrollRow := 0, scrollDirection := .left, glyphCount := 0 }
  pin :=
    { rs := .undriven, e := .undriven, d4 := .undriven, d5 := .undriven, d6 := .undriven, d7 := .undriven,
      row := ⟨.undriven, .undriven, .undriven, .undriven⟩ }
  trace := []
  timeSamples := []
  faults := ⟨false, false⟩
  refused := false
  issued := []
  replies := []
  env := { pressed := pressed, timeMs := timeMs }
  cmd := []
  cbCmd := []
  sched := []

/-- Construction with the configuration check: BadConfig refuses to build an initial state (R264, R293). -/
def State.construct (c : Config) (pressed : Grid Bool) (timeMs : Nat) : Outcome :=
  if c.valid then .next (State.ofConfig c pressed timeMs) else .refused .badConfig

/-- The free set of keys closed at reset (R290; log 7). -/
def State.resetPressed : Grid Bool :=
  ⟨⟨Config.freePressed 0 0, Config.freePressed 0 1, Config.freePressed 0 2, Config.freePressed 0 3⟩,
   ⟨Config.freePressed 1 0, Config.freePressed 1 1, Config.freePressed 1 2, Config.freePressed 1 3⟩,
   ⟨Config.freePressed 2 0, Config.freePressed 2 1, Config.freePressed 2 2, Config.freePressed 2 3⟩,
   ⟨Config.freePressed 3 0, Config.freePressed 3 1, Config.freePressed 3 2, Config.freePressed 3 3⟩⟩

/-- The machine right after power-on reset (R290, R291), with nothing placed on its ports (log 1). -/
def State.reset : State := State.ofConfig Config.board State.resetPressed Config.freeTimeMs

end Sys2Proof.Machine
end

