-- ==== Sys2Proof/Machine/Ops.lean ====
section
/-! DEFINITION. The named operations over the state: the trace primitives of R16, the outcome primitives of R17, the
contexts and checks the command rules share (R160, R209, R281), the entry of the callback and its return (R137, R268),
and the CharDisplay transfers of R190 to R194. -/

namespace Sys2Proof.Machine

/-! Four like things (R40). -/

/-- The i-th of four. -/
def Four.get {α : Type} (f : Four α) (i : BitVec 2) : α :=
  if i = 0 then f.i0 else if i = 1 then f.i1 else if i = 2 then f.i2 else f.i3

/-- Four things with the i-th replaced. -/
def Four.set {α : Type} (f : Four α) (i : BitVec 2) (x : α) : Four α :=
  if i = 0 then { f with i0 := x }
  else if i = 1 then { f with i1 := x }
  else if i = 2 then { f with i2 := x }
  else { f with i3 := x }

/-- The entry of a grid at a row and a column. -/
def Grid.at {α : Type} (g : Grid α) (row col : BitVec 2) : α := Four.get (Four.get g row) col

/-! Outcome primitives (R17) and contexts (R266). -/

/-- The context of a command executing now: while a callback is active HOST takes no step (R266), so the issuer is the
callback. -/
def State.context (s : State) : Context := if s.clk.cbActive then .callback else .mainFlow

/-- S.faults is not empty (R263). -/
def State.faulted (s : State) : Bool := s.faults.tickOverrun || s.faults.callbackReentry

/-- return v: the command completes with the result word v (R17, R93). -/
def State.reply (v : Word) (s : State) : State := { s with replies := s.replies ++ [.result s.context v] }

/-- refuse(r): the mark S.refused is set, nothing else of the block changes, and no result word is returned (R17,
R264). -/
def State.refuse (r : Reason) (s : State) : State :=
  { s with refused := true, replies := s.replies ++ [.refused s.context r] }

/-- The code of a refusal reason (R264). -/
def Reason.code (r : Reason) : Nat :=
  match r with
  | .illegalCommand => 1
  | .badPayload => 2
  | .notInitialised => 3
  | .reInit => 4
  | .operandRange => 5
  | .badConfig => 6

/-- The code of a fault kind (R262). -/
def FaultKind.code (k : FaultKind) : Nat :=
  match k with
  | .tickOverrun => 1
  | .callbackReentry => 2

/-- The kinds recorded in a set, by their codes (R57, R262). -/
def FaultSet.codes (f : FaultSet) : List Nat :=
  (if f.tickOverrun then [FaultKind.code .tickOverrun] else [])
    ++ (if f.callbackReentry then [FaultKind.code .callbackReentry] else [])

/-- The set of faults with one more kind (R262). -/
def FaultSet.insert (k : FaultKind) (f : FaultSet) : FaultSet :=
  match k with
  | .tickOverrun => { f with tickOverrun := true }
  | .callbackReentry => { f with callbackReentry := true }

/-- raise Fault(k): the kind is recorded and nothing else is written (R17, R263). The block is stuck from then on. -/
def State.raise (k : FaultKind) (s : State) : State := { s with faults := s.faults.insert k }

/-! Trace primitives (R16). -/

/-- Append an event to S.trace. -/
def State.emit (ev : Event) (s : State) : State := { s with trace := s.trace ++ [ev] }

/-- The level that drives a bit. -/
def Level.ofBit (b : Bool) : Level := if b then .high else .low

/-- S.pin with one pin driven. -/
def Pins.drive (p : Pin) (b : Bool) (f : Pins) : Pins :=
  match p with
  | .rs => { f with rs := .ofBit b }
  | .e => { f with e := .ofBit b }
  | .d4 => { f with d4 := .ofBit b }
  | .d5 => { f with d5 := .ofBit b }
  | .d6 => { f with d6 := .ofBit b }
  | .d7 => { f with d7 := .ofBit b }
  | .row i => { f with row := Four.set f.row i (.ofBit b) }

/-- A closed key of column c lies in a row driven low, so the column reads 0 (R58). -/
def columnLow (pressed : Grid Bool) (row : Four Level) (c : BitVec 2) : Bool :=
  (Four.get pressed.i0 c && row.i0 == .low) || (Four.get pressed.i1 c && row.i1 == .low)
    || (Four.get pressed.i2 c && row.i2 == .low) || (Four.get pressed.i3 c && row.i3 == .low)

/-- ColLevel(S): bit c is the level of column c (R58). -/
def State.colLevel (s : State) : BitVec 4 :=
  BitVec.ofBool (!columnLow s.env.pressed s.pin.row 3) ++ BitVec.ofBool (!columnLow s.env.pressed s.pin.row 2)
    ++ BitVec.ofBool (!columnLow s.env.pressed s.pin.row 1) ++ BitVec.ofBool (!columnLow s.env.pressed s.pin.row 0)

/-- The pin-change detector: while armed, a column level that is not the one before latches pcPending (R46, R271). -/
def State.latchChange (before : BitVec 4) (s : State) : State :=
  { s with kp := { s.kp with pcPending := s.kp.pcPending || (s.kp.initialised && s.colLevel != before) } }

/-- Out(p, b): the pin takes the level and the event is recorded, even if the level is the same (R16). A row pin may
change the column levels (R46); an LCD pin cannot (R58). -/
def State.out (p : Pin) (b : Bool) (s : State) : State :=
  match p with
  | .row i => State.latchChange s.colLevel (State.emit (.out (.row i) b) { s with pin := s.pin.drive (.row i) b })
  | p => State.emit (.out p b) { s with pin := s.pin.drive p b }

/-- Wait(T) (R16). -/
def State.wait (t : Delay) (s : State) : State := s.emit (.wait t)

/-- InCols(): the sample is recorded (R16); its value is ColLevel(S) at that step (R58). -/
def State.sampleColumns (s : State) : State := s.emit (.inCols s.colLevel)

/-- The value of Now(): ENV.timeMs mod 2^TIME_BITS (R59). -/
def State.now (s : State) : Word := BitVec.ofNat 32 s.env.timeMs

/-- Now(): the sample is recorded at its place in the order of the events (R16), and S.trace is as it was (R162, R164;
log 9). -/
def State.sampleTime (s : State) : State := { s with timeSamples := s.timeSamples ++ [(s.trace.length, s.now)] }

/-- The Now events that stand after k events of the trace. -/
def nowsAt (l : List (Nat × Word)) (k : Nat) : List Event := (l.filter fun x => x.1 == k).map fun x => .now x.2

/-- A trace whose first event is event number k, with the Now events of l put in. -/
def withNows (l : List (Nat × Word)) : Nat → List Event → List Event
  | k, [] => nowsAt l k
  | k, ev :: rest => nowsAt l k ++ ev :: withNows l (k + 1) rest

/-- The whole list of R16: the events of S.trace and the Now events, in the order they happened. -/
def State.events (s : State) : List Event := withNows s.timeSamples 0 s.trace

/-! Taking the callback and returning from it: the block's one transfer of control to host code (R137, R268, R273). -/

/-- Starting the registered callback in interrupt context: nothing is saved, cbActive is set and Callback(h) is appended
(R136, R268, R273). -/
def State.enterCallback (s : State) : State :=
  State.emit (.callback s.clk.callback) { s with clk := { s.clk with cbActive := true } }

/-- The callback's completion: the main flow resumes and EV_PINCHANGE may be taken again (R268, R274). -/
def State.leaveCallback (s : State) : State := { s with clk := { s.clk with cbActive := false } }

/-! Checks shared by the commands, in the priority of R281. -/

/-- A command the callback may not issue: from callback context it raises CallbackReentry before it has any effect
(R269); otherwise its body runs. -/
def mainFlowOnly (body : State → State) (s : State) : Outcome :=
  if s.clk.cbActive then .next (s.raise .callbackReentry) else .next (body s)

/-- A command that initialises once: a repeat is refused with ReInit (R130, R161, R195). -/
def onceOnly (done : Bool) (body : State → State) (s : State) : State :=
  if done then s.refuse .reInit else body s

/-- A CharDisplay command: CallbackReentry in callback context, then NotInitialised before LCD_INIT (R209, R281). -/
def lcdCommandStep (body : State → State) (s : State) : Outcome :=
  mainFlowOnly (fun s => if s.lcd.initialised then body s else s.refuse .notInitialised) s

/-! CharDisplay transfers (R190 to R194, R100). -/

/-- The mode index of R210. -/
def Display.mode (l : Display) : Mode := if l.simMode then .sim else .real

/-- The mode index of the block (R210). -/
def State.mode (s : State) : Mode := s.lcd.mode

/-- pulseEnable() (R190). -/
def pulse (s : State) : State :=
  let m := s.mode
  ((((((s.out .e false).wait (.as m)).out .e true).wait (.pw m)).out .e false).wait (.h m))

/-- The four data lines take the low four bits of v: D4 carries bit 0 (R191, R74). -/
def presentNibble (v : Byte) (s : State) : State :=
  (((s.out .d4 (v.getLsbD 0)).out .d5 (v.getLsbD 1)).out .d6 (v.getLsbD 2)).out .d7 (v.getLsbD 3)

/-- sendNibble(v) (R191). -/
def nibble (v : Byte) (s : State) : State := pulse (presentNibble v s)

/-- b[7:4] as the operand of sendNibble (R192). -/
def highNibble (b : Byte) : Byte := b >>> 4

/-- b[3:0] as the operand of sendNibble (R192). -/
def lowNibble (b : Byte) : Byte := b &&& 0x0F#8

/-- sendByte(rs, b): register select, high nibble, low nibble, execution wait (R192, R100). -/
def transfer (rs : Bool) (b : Byte) (s : State) : State :=
  (nibble (lowNibble b) (nibble (highNibble b) (s.out .rs rs))).wait .exec

/-- command(b) = sendByte(0, b) (R193). -/
def sendCommand (b : Byte) (s : State) : State := transfer false b s

/-- writeChar(b) = sendByte(1, b) (R194). -/
def sendData (b : Byte) (s : State) : State := transfer true b s

/-- writeChar of each byte in order (R198). -/
def sendText (text : List Byte) (s : State) : State := text.foldl (fun t b => sendData b t) s

/-- The body of clear and home: the command, then the long-recovery wait (R199, R200). -/
def sendLong (b : Byte) (s : State) : State := (sendCommand b s).wait .long

end Sys2Proof.Machine
end

