-- ==== Sys2Proof/Machine/Operands.lean ====
section
/-! DEFINITION. The operand computations of the CharDisplay commands: DDRAM and CGRAM addresses, the display-control
byte, centring, the scroll window, bitmap slices (spec/20_memory.md R71, R72, R79; spec/42 R201 to R208; spec/43). -/

namespace Sys2Proof.Machine

/-- ROW_OFFSET[row] (R10, R79). -/
def rowOffset (row : BitVec 2) : Byte :=
  if row = 0 then 0x00#8 else if row = 1 then 0x40#8 else if row = 2 then 0x14#8 else 0x54#8

/-- The set-DDRAM-address byte 0x80 | (col + ROW_OFFSET[row]) (R107, R201). -/
def cursorByte (col : Byte) (row : BitVec 2) : Byte := 0x80#8 ||| (col + rowOffset row)

/-- A row operand in the addressable range, as a row index (R12, R201, R230). -/
def rowIndex (row : Byte) : BitVec 2 := row.setWidth 2

/-- Row operands 0 to 3 are accepted (R201, R230, 92 D31). -/
def rowInRange (row : Byte) : Bool := decide (row.toNat < Config.rowsAddressable)

/-- Column operands 0 to 15 are accepted (R201). -/
def colInRange (col : Byte) : Bool := decide (col.toNat < Config.lcdCols)

/-- The slot operand names one of the 8 glyph slots (R240). -/
def slotInRange (slot : Byte) : Bool := decide (slot.toNat < Config.glyphSlots)

/-- The set-CGRAM-address byte 0x40 + s*8 of a slot (R106, R241). -/
def slotByte (s : Nat) : Byte := BitVec.ofNat 8 (0x40 + s * 8)

/-- The column the centred text of length n starts at (R231). -/
def centreCol (n : Nat) : Byte := BitVec.ofNat 8 ((Config.lcdCols - n) / 2)

/-- The display-control byte 0x08 | D<<2 | C<<1 | B (R104). -/
def displayControlByte (f : DispCtl) : Byte :=
  0b00001#5 ++ BitVec.ofBool f.d ++ BitVec.ofBool f.c ++ BitVec.ofBool f.b

/-- The i-th byte of the scroll window, scrollText[(p + i) mod n] (R232, R233). The index is past the end only for an
empty text, which no SCROLLING state of a run has (R56): a free byte then (log 21). -/
def windowByte (text : List Byte) (p i : Nat) : Byte :=
  text.getD ((p + i) % text.length) (Config.freeByte i)

/-- The 16 bytes of the scroll window (R233). -/
def windowBytes (text : List Byte) (p : Nat) : List Byte :=
  (List.range Config.lcdCols).map (windowByte text p)

/-- The position after an update: right steps back, left steps on, both circular (R232). -/
def nextPosition (dir : Direction) (n p : Nat) : Nat :=
  match dir with
  | .right => if p = 0 then n - 1 else p - 1
  | .left => (p + 1) % n

/-- The bitmap of slot s in a payload of bitmaps, P[8*s .. 8*s+7] (R242). -/
def bitmapOf (bitmaps : List Byte) (s : Nat) : List Byte := (bitmaps.drop (8 * s)).take 8

end Sys2Proof.Machine
end

