-- ==== Sys2Proof/Machine/BusCmds.lean ====
section
/-! DEFINITION. The CharDisplay micro-operations as instructions (R190 to R194), and the LCD bus encodings: what the
block does to put each on the bus (R100 to R110). None is a host command, so none has a result word or a context check
(R95; log 11, log 14). -/

namespace Sys2Proof.Machine

/-- pulseEnable() (R190). -/
def execPulseEnable (s : State) : Outcome := .next (pulse s)

/-- sendNibble(v) (R191). -/
def execSendNibble (v : Byte) (s : State) : Outcome := .next (nibble v s)

/-- sendByte(rs, b) (R192). -/
def execSendByte (rs : Bool) (b : Byte) (s : State) : Outcome := .next (transfer rs b s)

/-- command(b) (R193). -/
def execCommand (b : Byte) (s : State) : Outcome := .next (sendCommand b s)

/-- writeChar(b) (R194). -/
def execWriteChar (b : Byte) (s : State) : Outcome := .next (sendData b s)

/-- The clear-display byte on the bus (R100, R101). -/
def execBusClearDisplay (s : State) : Outcome := .next (transfer false 0x01#8 s)

/-- The return-home byte on the bus (R100, R102). -/
def execBusReturnHome (x : Bool) (s : State) : Outcome :=
  .next (transfer false (0b0000001#7 ++ BitVec.ofBool x) s)

/-- The entry-mode-set byte on the bus (R100, R103). -/
def execBusEntryModeSet (id sh : Bool) (s : State) : Outcome :=
  .next (transfer false (0b000001#6 ++ BitVec.ofBool id ++ BitVec.ofBool sh) s)

/-- The display-control byte on the bus (R100, R104); the shadow is not written (R208). -/
def execBusDisplayControl (d c b : Bool) (s : State) : Outcome :=
  .next (transfer false (displayControlByte ⟨d, c, b⟩) s)

/-- The function-set byte on the bus (R100, R105; log 13). -/
def execBusFunctionSet (dl n f : Bool) (x : BitVec 2) (s : State) : Outcome :=
  .next (transfer false (0b001#3 ++ BitVec.ofBool dl ++ BitVec.ofBool n ++ BitVec.ofBool f ++ x) s)

/-- The set-CGRAM-address byte on the bus (R100, R106). -/
def execBusSetCgramAddr (a : BitVec 6) (s : State) : Outcome := .next (transfer false (0b01#2 ++ a) s)

/-- The set-DDRAM-address byte on the bus (R100, R107). -/
def execBusSetDdramAddr (a : BitVec 7) (s : State) : Outcome := .next (transfer false (0b1#1 ++ a) s)

/-- A data byte on the bus (R100, R110). -/
def execBusDataWrite (d : Byte) (s : State) : Outcome := .next (transfer true d s)

/-- A lone nibble with RS = 0: one data-line group and one pulseEnable (R100, R108, R109). RS is 0 already in the wake
sequence; where it is not, it is driven low first, since the nibble is one with RS = 0 (log 14). -/
def loneNibble (v : Byte) (s : State) : State :=
  if s.pin.rs = .low then nibble v s else nibble v (s.out .rs false)

/-- The wake nibble on the bus (R108). -/
def execBusWakeNibble (s : State) : Outcome := .next (loneNibble 0x3#8 s)

/-- The switch-to-4-bit nibble on the bus (R109). -/
def execBus4BitNibble (s : State) : Outcome := .next (loneNibble 0x2#8 s)

end Sys2Proof.Machine
end

