-- ==== Sys2Proof/Machine/Flags.lean ====
section
/-! DEFINITION. The counter, flag and gate computations: the tick's phase and carry (R136, R141), the half-tick count
(R139), the debounce gate (R162, R163), the column match (R167), the status word (R169). -/

namespace Sys2Proof.Machine

/-- The counters after a tick: the phase toggles, and its wrap to 0 carries into the seconds (R136, R141). -/
def Clock.count (c : Clock) : Clock :=
  let phase := c.halfSecondPhase ^^^ 1#1
  { c with
    halfSecondPhase := phase
    secondsElapsed := if phase = 0#1 then c.secondsElapsed + 1#32 else c.secondsElapsed }

/-- The half-tick count (2*s + p) mod 2^32 (R139, R141). -/
def Clock.halfTicks (c : Clock) : Word := 2#32 * c.secondsElapsed + c.halfSecondPhase.setWidth 32

/-- The debounce window is open: the elapsed time, a difference mod 2^32, is below DEBOUNCE_MS (R162, R163). -/
def debounceOpen (t last : Word) (debounceMs : Nat) : Bool := decide ((t - last).toNat < debounceMs)

/-- The first column, in index order, whose sampled level is 0 (R167). -/
def firstLowColumn (c : BitVec 4) : Option (BitVec 2) :=
  if !c.getLsbD 0 then some 0
  else if !c.getLsbD 1 then some 1
  else if !c.getLsbD 2 then some 2
  else if !c.getLsbD 3 then some 3
  else none

/-- The status word: zeros, keyDetectedFlag, currentRow (R93, R169). -/
def Keypad.statusWord (k : Keypad) : Word := 0#29 ++ BitVec.ofBool k.keyDetectedFlag ++ k.currentRow

end Sys2Proof.Machine
end

