-- ==== Sys2Proof/Machine/ClockCmds.lean ====
section
/-! DEFINITION. The Clock commands (spec/40_clock.md R130 to R140). -/

namespace Sys2Proof.Machine

/-- CLK_CONFIGURE (R130). -/
def execClkConfigure (s : State) : Outcome :=
  mainFlowOnly (fun s => onceOnly s.clk.configured
    (fun s => State.reply 0 { s with clk := { s.clk with configured := true } }) s) s

/-- CLK_START (R131). -/
def execClkStart (s : State) : Outcome :=
  mainFlowOnly (fun s => State.reply 0 { s with clk := { s.clk with running := true } }) s

/-- CLK_STOP (R132). -/
def execClkStop (s : State) : Outcome :=
  mainFlowOnly (fun s => State.reply 0 { s with clk := { s.clk with running := false } }) s

/-- CLK_RESET: both counters are zeroed in one step (R134, R85). The restart of the timer count is timing only (R303). -/
def execClkReset (s : State) : Outcome :=
  mainFlowOnly (fun s => State.reply 0 { s with clk := { s.clk with halfSecondPhase := 0, secondsElapsed := 0 } }) s

/-- CLK_GET_SECONDS, allowed in both contexts (R138, R269). -/
def execClkGetSeconds (s : State) : Outcome := .next (s.reply s.clk.secondsElapsed)

/-- CLK_GET_TOTAL_HALF_TICKS, allowed in both contexts (R139, R269). -/
def execClkGetTotalHalfTicks (s : State) : Outcome := .next (s.reply s.clk.halfTicks)

/-- CLK_SET_TICK_CALLBACK h (R140). -/
def execClkSetTickCallback (h : BitVec 24) (s : State) : Outcome :=
  mainFlowOnly (fun s => State.reply 0 { s with clk := { s.clk with callback := h } }) s

end Sys2Proof.Machine
end

