-- ==== Sys2Proof/Machine/Events.lean ====
section
/-! DEFINITION. The agent events, which have no encoding (R95): the tick handler (R136), the pin-change handler (R168)
and the callback's completion (R268). Their enabling conditions are the agents' (Machine/Agents.lean). -/

namespace Sys2Proof.Machine

/-- The tick handler past its guards: the phase, the carry, then the callback, in that order (R82, R136, R137). -/
def countTick (s : State) : State :=
  let t := { s with clk := s.clk.count }
  if t.clk.callback = 0 then t else t.enterCallback

/-- EV_TICK (R136): the handler's own guard, then TickOverrun while a callback is active (R270), then the count. -/
def execEvTick (s : State) : Outcome :=
  if s.clk.running then
    if s.clk.cbActive then .next (s.raise .tickOverrun) else .next (countTick s)
  else .next s

/-- EV_PINCHANGE (R168). -/
def execEvPinchange (s : State) : Outcome :=
  .next { s with kp := { s.kp with pcPending := false, keyDetectedFlag := true } }

/-- EV_CB_DONE (R268). -/
def execEvCbDone (s : State) : Outcome := .next s.leaveCallback

end Sys2Proof.Machine
end

