-- ==== Sys2Proof/Machine/GlyphCmds.lean ====
section
/-! DEFINITION. The custom-glyph commands (spec/43_lcd_scroll_glyph.md R240 to R243). -/

namespace Sys2Proof.Machine

/-- CreateCharBody(s, bm): CGRAM address of the slot, the row patterns, back to DDRAM address 0 (R241). -/
def createCharBody (slot : Nat) (bitmap : List Byte) (s : State) : State :=
  let t := sendCommand 0x80#8 (sendText bitmap (sendCommand (slotByte slot) s))
  { t with lcd := { t.lcd with glyphCount := max t.lcd.glyphCount (slot + 1) } }

/-- LCD_CREATE_CHAR slot, bitmap: a slot out of range is the failure result 0 (R241, R261). -/
def execLcdCreateChar (slot : Byte) (bitmap : List Byte) (s : State) : Outcome :=
  lcdCommandStep (fun s =>
    if bitmap.length = 8 then
      if slotInRange slot then State.reply 1 (createCharBody slot.toNat bitmap s) else s.reply 0
    else s.refuse .badPayload) s

/-- Slots 0 to n-1 in order, each a full CreateCharBody (R242). -/
def createChars (n : Nat) (bitmaps : List Byte) (s : State) : State :=
  (List.range n).foldl (fun t k => createCharBody k (bitmapOf bitmaps k) t) s

/-- LCD_CREATE_CHARS count, bitmaps: a count above 8 is the failure result 0, whatever the payload (R242, R261). -/
def execLcdCreateChars (count : Byte) (bitmaps : List Byte) (s : State) : Outcome :=
  lcdCommandStep (fun s =>
    if Config.glyphSlots < count.toNat then s.reply 0
    else if bitmaps.length = 8 * count.toNat then State.reply 1 (createChars count.toNat bitmaps s)
    else s.refuse .badPayload) s

/-- LCD_WRITE_CUSTOM_CHAR slot: a slot out of range is silently nothing (R243, R261). -/
def execLcdWriteCustomChar (slot : Byte) (s : State) : Outcome :=
  lcdCommandStep (fun s => if slotInRange slot then State.reply 0 (sendData slot s) else s.reply 0) s

end Sys2Proof.Machine
end

