-- ==== Sys2Proof/Machine/KeypadCmds.lean ====
section
/-! DEFINITION. The KeyScanner commands (spec/41_keypad.md R160 to R169). -/

namespace Sys2Proof.Machine

/-- All rows driven active, in index order (R161). -/
def driveRowsActive (s : State) : State :=
  (((s.out (.row 0) false).out (.row 1) false).out (.row 2) false).out (.row 3) false

/-- KPD_INIT (R161): the pin-change source is armed from here on. -/
def execKpdInit (s : State) : Outcome :=
  mainFlowOnly (fun s => onceOnly s.kp.initialised (fun s =>
    let t := driveRowsActive s
    State.reply 0 { t with kp := { t.kp with pcPending := false, initialised := true } }) s) s

/-- The row switch: the previous row goes high, currentRow advances modulo 4, the new row goes low (R165). -/
def switchRow (s : State) : State :=
  let t := s.out (.row s.kp.currentRow) true
  let t := { t with kp := { t.kp with currentRow := t.kp.currentRow + 1 } }
  t.out (.row t.kp.currentRow) false

/-- The first half of KPD_GET_KEY (R162, R164): the debounce gate, then the row switch, the settle wait and the
interleaving point. -/
def getKeyFirstHalf (s : State) : State :=
  let t := s.now
  let v := s.sampleTime
  if debounceOpen t s.kp.lastDebounceTimestamp s.cfg.debounceMs then v.reply (Config.noKey.setWidth 32)
  else
    let u := (switchRow v).wait .settle
    { u with kp := { u.kp with gkTime := t, gkPhase := .switched } }

/-- The test-and-clear of the flag, one step with the rest of the second half (R84, R166). -/
def clearKeyFlag (s : State) : State :=
  { s with kp := { s.kp with keyDetectedFlag := false, gkPhase := .idle } }

/-- A key is found at a column of the active row: the timestamp is stamped with the gate's own sample and the symbol is
returned (R167). -/
def acceptKey (col : BitVec 2) (s : State) : State :=
  State.reply ((Grid.at s.cfg.keymap s.kp.currentRow col).setWidth 32)
    { s with kp := { s.kp with lastDebounceTimestamp := s.kp.gkTime } }

/-- The second half of KPD_GET_KEY (R164, R166, R167). -/
def getKeySecondHalf (s : State) : State :=
  let t := clearKeyFlag s
  if s.kp.keyDetectedFlag then
    let u := t.sampleColumns
    match firstLowColumn t.colLevel with
    | some col => acceptKey col u
    | none => u.reply (Config.noKey.setWidth 32)
  else t.reply (Config.noKey.setWidth 32)

/-- KPD_GET_KEY (R164): its second half while one is in flight (R47, R166; log 15), else its first half. -/
def execKpdGetKey (s : State) : Outcome :=
  mainFlowOnly (fun s =>
    match s.kp.gkPhase with
    | .switched => getKeySecondHalf s
    | .idle => if s.kp.initialised then getKeyFirstHalf s else s.refuse .notInitialised) s

/-- KPD_STATUS, legal before init, not from callback context (R160, R169). -/
def execKpdStatus (s : State) : Outcome :=
  mainFlowOnly (fun s => s.reply s.kp.statusWord) s

end Sys2Proof.Machine
end

