-- ==== Sys2Proof/Machine/LcdCmds.lean ====
section
/-! DEFINITION. The CharDisplay core commands (spec/42_lcd_protocol.md R195 to R208). -/

namespace Sys2Proof.Machine

/-- The wake sequence of LCD_INIT up to 4-bit mode (R195, R108, R109). -/
def wakeSequence (s : State) : State :=
  let s := ((s.out .rs false).out .e false).wait .powerOn
  let s := (nibble 0x3#8 s).wait .wake1
  let s := (nibble 0x3#8 s).wait .wake2
  let s := (nibble 0x3#8 s).wait .wake3
  (nibble 0x2#8 s).wait .exec

/-- The four commands that end LCD_INIT: function set, display control, entry mode, clear (R195). -/
def setupCommands (s : State) : State :=
  sendLong 0x01#8 (sendCommand 0x06#8 (sendCommand 0x0C#8 (sendCommand 0x28#8 s)))

/-- LCD_INIT (R195). -/
def execLcdInit (s : State) : Outcome :=
  mainFlowOnly (fun s => onceOnly s.lcd.initialised (fun s =>
    let t := setupCommands (wakeSequence s)
    State.reply 0 { t with lcd := { t.lcd with dispCtl := ⟨true, false, false⟩, initialised := true } }) s) s

/-- LCD_COMMAND b: the byte is sent unchanged, with no shadow update and no long wait (R196). -/
def execLcdCommand (b : Byte) (s : State) : Outcome :=
  lcdCommandStep (fun s => State.reply 0 (sendCommand b s)) s

/-- LCD_WRITE_CHAR b (R197). -/
def execLcdWriteChar (b : Byte) (s : State) : Outcome :=
  lcdCommandStep (fun s => State.reply 0 (sendData b s)) s

/-- LCD_PRINT text (R198). -/
def execLcdPrint (text : List Byte) (s : State) : Outcome :=
  lcdCommandStep (fun s =>
    if s.cfg.maxText < text.length then s.refuse .badPayload else State.reply 0 (sendText text s)) s

/-- LCD_CLEAR (R199). -/
def execLcdClear (s : State) : Outcome :=
  lcdCommandStep (fun s => State.reply 0 (sendLong 0x01#8 s)) s

/-- LCD_HOME (R200). -/
def execLcdHome (s : State) : Outcome :=
  lcdCommandStep (fun s => State.reply 0 (sendLong 0x02#8 s)) s

/-- LCD_SET_CURSOR col, row (R201). -/
def execLcdSetCursor (col row : Byte) (s : State) : Outcome :=
  lcdCommandStep (fun s =>
    if rowInRange row && colInRange col then State.reply 0 (sendCommand (cursorByte col (rowIndex row)) s)
    else s.refuse .operandRange) s

/-- The body the six toggles share: the shadow takes its new value and the whole display-control byte is sent, even when
nothing changed (R203 to R208). -/
def toggle (f : DispCtl) (s : State) : State :=
  State.reply 0 (sendCommand (displayControlByte f) { s with lcd := { s.lcd with dispCtl := f } })

/-- LCD_DISPLAY_ON (R203). -/
def execLcdDisplayOn (s : State) : Outcome :=
  lcdCommandStep (fun s => toggle { s.lcd.dispCtl with d := true } s) s

/-- LCD_DISPLAY_OFF (R204). -/
def execLcdDisplayOff (s : State) : Outcome :=
  lcdCommandStep (fun s => toggle { s.lcd.dispCtl with d := false } s) s

/-- LCD_CURSOR_ON (R205). -/
def execLcdCursorOn (s : State) : Outcome :=
  lcdCommandStep (fun s => toggle { s.lcd.dispCtl with c := true } s) s

/-- LCD_CURSOR_OFF (R206). -/
def execLcdCursorOff (s : State) : Outcome :=
  lcdCommandStep (fun s => toggle { s.lcd.dispCtl with c := false } s) s

/-- LCD_BLINK_ON (R207). -/
def execLcdBlinkOn (s : State) : Outcome :=
  lcdCommandStep (fun s => toggle { s.lcd.dispCtl with b := true } s) s

/-- LCD_BLINK_OFF (R208). -/
def execLcdBlinkOff (s : State) : Outcome :=
  lcdCommandStep (fun s => toggle { s.lcd.dispCtl with b := false } s) s

end Sys2Proof.Machine
end

