-- ==== Sys2Proof/Machine/ScrollCmds.lean ====
section
/-! DEFINITION. The scroll commands (spec/43_lcd_scroll_glyph.md R230 to R239). -/

namespace Sys2Proof.Machine

/-- The bus activity of the Static branch: clear, cursor at the centred column, the text (R230, R231). -/
def renderCentred (row : BitVec 2) (text : List Byte) (s : State) : State :=
  sendText text (sendCommand (cursorByte (centreCol text.length) row) (sendLong 0x01#8 s))

/-- The Static branch of startScroll (R230). -/
def startStatic (row : BitVec 2) (dir : Direction) (text : List Byte) (s : State) : State :=
  let t := renderCentred row text s
  { t with lcd := { t.lcd with scrollMode := .static, scrollText := [], scrollPosition := 0, scrollRow := row,
                               scrollDirection := dir } }

/-- The Scrolling branch of startScroll: no bus activity (R230). -/
def startScrolling (row : BitVec 2) (dir : Direction) (text : List Byte) (s : State) : State :=
  { s with lcd := { s.lcd with scrollMode := .scrolling, scrollText := text, scrollPosition := 0, scrollRow := row,
                               scrollDirection := dir } }

/-- LCD_START_SCROLL text, row, dir (R230): the row check, then the length check (R281). -/
def execLcdStartScroll (row : Byte) (dir : Direction) (text : List Byte) (s : State) : Outcome :=
  lcdCommandStep (fun s =>
    if rowInRange row then
      if s.cfg.maxScrollLen < text.length then s.refuse .badPayload
      else if text.length ≤ Config.lcdCols then State.reply 0 (startStatic (rowIndex row) dir text s)
      else State.reply 0 (startScrolling (rowIndex row) dir text s)
    else s.refuse .operandRange) s

/-- LCD_STOP_SCROLL: no bus activity, row and direction kept (R235). -/
def execLcdStopScroll (s : State) : Outcome :=
  lcdCommandStep (fun s =>
    State.reply 0 { s with lcd := { s.lcd with scrollMode := .idle, scrollText := [], scrollPosition := 0 } }) s

/-- Rendering the window at column 0 of the scroll row, then the advance (R232). -/
def renderWindow (s : State) : State :=
  let t := sendText (windowBytes s.lcd.scrollText s.lcd.scrollPosition) (sendCommand (cursorByte 0 s.lcd.scrollRow) s)
  { t with lcd := { t.lcd with
      scrollPosition := nextPosition s.lcd.scrollDirection s.lcd.scrollText.length s.lcd.scrollPosition } }

/-- LCD_UPDATE_SCROLL: no effect in Idle and Static (R232). -/
def execLcdUpdateScroll (s : State) : Outcome :=
  lcdCommandStep (fun s =>
    match s.lcd.scrollMode with
    | .scrolling => State.reply 0 (renderWindow s)
    | .idle => s.reply 0
    | .static => s.reply 0) s

/-- LCD_SET_SCROLL_DIRECTION dir (R236). -/
def execLcdSetScrollDirection (dir : Direction) (s : State) : Outcome :=
  lcdCommandStep (fun s => State.reply 0 { s with lcd := { s.lcd with scrollDirection := dir } }) s

/-- isScrolling is scrollMode = SCROLLING (R54). -/
def Display.isScrolling (l : Display) : Bool := l.scrollMode == .scrolling

/-- LCD_IS_SCROLLING, allowed before LCD_INIT (R209, R237). -/
def execLcdIsScrolling (s : State) : Outcome :=
  mainFlowOnly (fun s => s.reply ((BitVec.ofBool s.lcd.isScrolling).setWidth 32)) s

/-- LCD_GET_SCROLL_POSITION, allowed before LCD_INIT (R209, R238). -/
def execLcdGetScrollPosition (s : State) : Outcome :=
  mainFlowOnly (fun s => s.reply (BitVec.ofNat 32 s.lcd.scrollPosition)) s

end Sys2Proof.Machine
end

