-- ==== Sys2Proof/Machine/Dispatch.lean ====
section
/-! DEFINITION. exec: one arm for every instruction, each one direct call of its meaning. -/

namespace Sys2Proof.Machine

-- The effect of one instruction (R18): for a host command, as the command port decodes it; for an internal operation, its body.
def exec (i : Instr) (s : State) : Host.Outcome State Fault Refusal :=
  match i with
  | .clkConfigure => Sys2Proof.Machine.execClkConfigure s
  | .clkStart => Sys2Proof.Machine.execClkStart s
  | .clkStop => Sys2Proof.Machine.execClkStop s
  | .clkReset => Sys2Proof.Machine.execClkReset s
  | .clkGetSeconds => Sys2Proof.Machine.execClkGetSeconds s
  | .clkGetTotalHalfTicks => Sys2Proof.Machine.execClkGetTotalHalfTicks s
  | .clkSetTickCallback h => Sys2Proof.Machine.execClkSetTickCallback h s
  | .kpdInit => Sys2Proof.Machine.execKpdInit s
  | .kpdGetKey => Sys2Proof.Machine.execKpdGetKey s
  | .kpdStatus => Sys2Proof.Machine.execKpdStatus s
  | .lcdInit => Sys2Proof.Machine.execLcdInit s
  | .lcdCommand b => Sys2Proof.Machine.execLcdCommand b s
  | .lcdWriteChar b => Sys2Proof.Machine.execLcdWriteChar b s
  | .lcdPrint text => Sys2Proof.Machine.execLcdPrint text s
  | .lcdClear => Sys2Proof.Machine.execLcdClear s
  | .lcdHome => Sys2Proof.Machine.execLcdHome s
  | .lcdSetCursor col row => Sys2Proof.Machine.execLcdSetCursor col row s
  | .lcdDisplayOn => Sys2Proof.Machine.execLcdDisplayOn s
  | .lcdDisplayOff => Sys2Proof.Machine.execLcdDisplayOff s
  | .lcdCursorOn => Sys2Proof.Machine.execLcdCursorOn s
  | .lcdCursorOff => Sys2Proof.Machine.execLcdCursorOff s
  | .lcdBlinkOn => Sys2Proof.Machine.execLcdBlinkOn s
  | .lcdBlinkOff => Sys2Proof.Machine.execLcdBlinkOff s
  | .lcdStartScroll row dir text => Sys2Proof.Machine.execLcdStartScroll row dir text s
  | .lcdStopScroll => Sys2Proof.Machine.execLcdStopScroll s
  | .lcdUpdateScroll => Sys2Proof.Machine.execLcdUpdateScroll s
  | .lcdSetScrollDirection dir => Sys2Proof.Machine.execLcdSetScrollDirection dir s
  | .lcdIsScrolling => Sys2Proof.Machine.execLcdIsScrolling s
  | .lcdGetScrollPosition => Sys2Proof.Machine.execLcdGetScrollPosition s
  | .lcdCreateChar slot bitmap => Sys2Proof.Machine.execLcdCreateChar slot bitmap s
  | .lcdCreateChars count bitmaps => Sys2Proof.Machine.execLcdCreateChars count bitmaps s
  | .lcdWriteCustomChar slot => Sys2Proof.Machine.execLcdWriteCustomChar slot s
  | .evTick => Sys2Proof.Machine.execEvTick s
  | .evPinchange => Sys2Proof.Machine.execEvPinchange s
  | .evCbDone => Sys2Proof.Machine.execEvCbDone s
  | .pulseEnable => Sys2Proof.Machine.execPulseEnable s
  | .sendNibble v => Sys2Proof.Machine.execSendNibble v s
  | .sendByte rs b => Sys2Proof.Machine.execSendByte rs b s
  | .command b => Sys2Proof.Machine.execCommand b s
  | .writeChar b => Sys2Proof.Machine.execWriteChar b s
  | .busClearDisplay => Sys2Proof.Machine.execBusClearDisplay s
  | .busReturnHome x => Sys2Proof.Machine.execBusReturnHome x s
  | .busEntryModeSet id sh => Sys2Proof.Machine.execBusEntryModeSet id sh s
  | .busDisplayControl d c b => Sys2Proof.Machine.execBusDisplayControl d c b s
  | .busFunctionSet dl n f x => Sys2Proof.Machine.execBusFunctionSet dl n f x s
  | .busSetCgramAddr a => Sys2Proof.Machine.execBusSetCgramAddr a s
  | .busSetDdramAddr a => Sys2Proof.Machine.execBusSetDdramAddr a s
  | .busDataWrite d => Sys2Proof.Machine.execBusDataWrite d s
  | .busWakeNibble => Sys2Proof.Machine.execBusWakeNibble s
  | .bus4BitNibble => Sys2Proof.Machine.execBus4BitNibble s

end Sys2Proof.Machine
end

