-- ==== Sys2Proof/Machine/Agents.lean ====
section
/-! DEFINITION. The turns of the agents: their enabling conditions and what each does with its step (R9, R58, R59, R136,
R164, R168, R263 to R274). An agent given a turn while it is not enabled takes no step (log 2). -/

namespace Sys2Proof.Machine

/-- TICK is enabled: configured and running (R136, R265). That no fault is recorded is step's own condition. -/
def State.tickEnabled (s : State) : Bool := s.clk.configured && s.clk.running

/-- PCINT is enabled: a latched edge, and no active callback (R168, R274). -/
def State.pinChangeEnabled (s : State) : Bool := s.kp.pcPending && !s.clk.cbActive

/-- CB is enabled: a callback is active (R268, R269). -/
def State.cbEnabled (s : State) : Bool := s.clk.cbActive

/-- HOST may take a step: no callback is active (R266). -/
def State.hostEnabled (s : State) : Bool := !s.clk.cbActive

/-- A command at the port, from whichever context is running: it is decoded (R281) and executed, or refused (R264). The
issue is recorded (R20; log 4). -/
def issue (c : Command) (s : State) : Outcome :=
  let t := { s with issued := s.issued ++ [(s.context, c)] }
  match decodeHost c with
  | .ok i => exec i t
  | .error r => .next (t.refuse r)

/-- HOST's turn (R164, R166, R266): a suspended KPD_GET_KEY goes on to its second half, else the next command of the port
is issued. -/
def hostTurn (s : State) : Outcome :=
  if s.hostEnabled then
    match s.kp.gkPhase with
    | .switched => exec .kpdGetKey s
    | .idle =>
      match s.cmd with
      | [] => .next s
      | c :: rest => issue c { s with cmd := rest }
  else .next s

/-- CB's turn to issue a command (R269). -/
def cbTurn (s : State) : Outcome :=
  if s.cbEnabled then
    match s.cbCmd with
    | [] => .next s
    | c :: rest => issue c { s with cbCmd := rest }
  else .next s

/-- TICK's turn (R136, R267). -/
def tickTurn (s : State) : Outcome := if s.tickEnabled then exec .evTick s else .next s

/-- PCINT's turn (R168, R271, R274). -/
def pinChangeTurn (s : State) : Outcome := if s.pinChangeEnabled then exec .evPinchange s else .next s

/-- CB's turn to complete (R268). -/
def cbDoneTurn (s : State) : Outcome := if s.cbEnabled then exec .evCbDone s else .next s

/-- ENV replaces the pressed keys; an armed detector latches a change of the column levels (R46, R58, R271). -/
def pressKeys (keys : Grid Bool) (s : State) : State :=
  State.latchChange s.colLevel { s with env := { s.env with pressed := keys } }

/-- ENV lets time pass; the time source never decreases (R59). -/
def passTime (ms : Nat) (s : State) : State := { s with env := { s.env with timeMs := s.env.timeMs + ms } }

/-- The model's own input: the bus transfer is decoded and put on the bus (R100; log 11). -/
def busTurn (t : BusTransfer) (s : State) : Outcome :=
  match decodeBus t with
  | .ok i => exec i s
  | .error _ => .refused .unassignedTransfer

/-- The turn a schedule entry gives. -/
def takeTurn (c : Choice) (s : State) : Outcome :=
  match c with
  | .host => hostTurn s
  | .tick => tickTurn s
  | .pinChange => pinChangeTurn s
  | .cb => cbTurn s
  | .cbDone => cbDoneTurn s
  | .press keys => .next (pressKeys keys s)
  | .passTime ms => .next (passTime ms s)
  | .bus t => busTurn t s

/-- One step (R81, R263): stuck once a fault is recorded; otherwise the next entry of the schedule has its turn, and with
an empty schedule no agent moves. -/
def stepState (s : State) : Outcome :=
  if s.faulted then .fault .stuck
  else
    match s.sched with
    | [] => .next s
    | c :: rest => takeTurn c { s with sched := rest }

/-- A state with an encoding placed where the next step takes it: a host command at the head of the port and HOST at the
head of the schedule, or a bus transfer at the head of the schedule (log 1, log 11). -/
def placeCode (c : Code) (s : State) : State :=
  match c with
  | .host c => { s with cmd := c :: s.cmd, sched := .host :: s.sched }
  | .bus t => { s with sched := .bus t :: s.sched }

end Sys2Proof.Machine
end

