-- ==== Sys2Proof/Machine/Step.lean ====
section
/-! DEFINITION. One step of the machine, and a state with an instruction of the opcode table placed where the next step
takes it. -/

namespace Sys2Proof.Machine

/-- One step of one agent (R81, R263). -/
def step (s : State) : Host.Outcome State Fault Refusal := stepState s

/-- s with the table word w of nbits bits placed where the next step takes its instruction (log 1, log 12); s itself
where nbits is no width of the table. -/
def State.withFetchWord (s : State) (nbits w : Nat) : State :=
  match codeOfTableWord nbits w with
  | some c => placeCode c s
  | none => s

end Sys2Proof.Machine
end

