-- ==== Sys2Proof/Machine/BusView.lean ====
section
/-! DEFINITION. What the LCD bus carries, read back from a trace: the transfers (R77, R100), the waits between them
(R296), and what the external controller's address counter, DDRAM and CGRAM hold after them as far as the spec says it
(R71 to R73, R110; PRESUMED, log 17). None of this is state of the block (R3, R73): it is computed from S.trace. -/

namespace Sys2Proof.Machine

/-! Transfers and waits. -/

/-- The duration in microseconds of the parameter a Wait names (R13, R16). -/
def Delay.us (c : Config) (t : Delay) : Nat :=
  match t with
  | .settle => c.tSettleUs
  | .as .real => c.tAsUs.real
  | .as .sim => c.tAsUs.sim
  | .pw .real => c.tPwUs.real
  | .pw .sim => c.tPwUs.sim
  | .h .real => c.tHUs.real
  | .h .sim => c.tHUs.sim
  | .exec => c.tExecUs
  | .long => c.tLongUs
  | .powerOn => c.tPowerOnUs
  | .wake1 => c.tWake1Us
  | .wake2 => c.tWake2Us
  | .wake3 => c.tWake3Us

/-- The waits of an Enable pulse, which are part of a transfer (R190). -/
def Delay.inPulse (t : Delay) : Bool :=
  match t with
  | .as _ | .pw _ | .h _ => true
  | .settle | .exec | .long | .powerOn | .wake1 | .wake2 | .wake3 => false

/-- The nibble on the data lines: D4 is bit 0 (R74, R191). -/
def Pins.dataNibble (f : Pins) : BitVec 4 :=
  BitVec.ofBool (f.d7 == .high) ++ BitVec.ofBool (f.d6 == .high) ++ BitVec.ofBool (f.d5 == .high)
    ++ BitVec.ofBool (f.d4 == .high)

/-- An observer of the bus: the pin levels, a nibble whose second half has not come, the transfers so far, and the wait
still owed before the next Out to an LCD pin (R296). -/
structure BusMonitor where
  pin : Pins
  pending : Option (BitVec 4)
  transfers : List BusTransfer
  owed : Nat
  wellTimed : Bool
deriving DecidableEq, Repr

/-- The observer before any event: every pin undriven (R48, R50). -/
def BusMonitor.start : BusMonitor :=
  ⟨⟨.undriven, .undriven, .undriven, .undriven, .undriven, .undriven,
    ⟨.undriven, .undriven, .undriven, .undriven⟩⟩, none, [], 0, true⟩

/-- A pending nibble that no second nibble completes was a lone nibble (R100). -/
def BusMonitor.closeNibble (m : BusMonitor) : BusMonitor :=
  match m.pending with
  | some v => { m with pending := none, transfers := m.transfers ++ [.nibble v] }
  | none => m

/-- The wait a byte transfer asks for before the next Out to an LCD pin: the long recovery after the command bytes 0x01,
0x02 and 0x03, the execution wait after any other byte (R296). -/
def owedAfter (c : Config) (rs : Bool) (b : Byte) : Nat :=
  if !rs && (b == 0x01#8 || b == 0x02#8 || b == 0x03#8) then Config.tLongMinUs else c.tExecUs

/-- The falling edge of E latches RS and the data lines; every second nibble completes a byte, high nibble first (R74,
R77, R190). -/
def BusMonitor.latch (c : Config) (m : BusMonitor) : BusMonitor :=
  match m.pending with
  | none => { m with pending := some m.pin.dataNibble }
  | some hi =>
    let rs := m.pin.rs == .high
    let b : Byte := hi ++ m.pin.dataNibble
    { m with pending := none, transfers := m.transfers ++ [.byte rs b], owed := owedAfter c rs b }

/-- An Out to an LCD pin: it is early if some wait is still owed (R296). -/
def BusMonitor.lcdOut (c : Config) (p : Pin) (b : Bool) (m : BusMonitor) : BusMonitor :=
  let falls := p == .e && !b && m.pin.e == .high
  let m := if p == .rs then m.closeNibble else m
  let m := { m with pin := m.pin.drive p b, wellTimed := m.wellTimed && m.owed == 0, owed := 0 }
  if falls then m.latch c else m

/-- A Wait pays what is owed; a wait outside a pulse ends a lone nibble. -/
def BusMonitor.waited (c : Config) (t : Delay) (m : BusMonitor) : BusMonitor :=
  if t.inPulse then m else { m.closeNibble with owed := m.owed - t.us c }

/-- The observer after one event. -/
def BusMonitor.see (c : Config) (m : BusMonitor) (ev : Event) : BusMonitor :=
  match ev with
  | .out (.row i) b => { m with pin := m.pin.drive (.row i) b }
  | .out p b => m.lcdOut c p b
  | .wait t => m.waited c t
  | .inCols _ | .now _ | .callback _ => m

/-- The observer after a trace. -/
def busMonitor (c : Config) (tr : List Event) : BusMonitor := tr.foldl (BusMonitor.see c) BusMonitor.start

/-- LcdTraceWellTimed(trace) of R296. -/
def lcdTraceWellTimed (c : Config) (tr : List Event) : Bool := (busMonitor c tr).wellTimed

/-! The external controller, as far as the spec gives its reaction (R71 to R73, R110, R199, R200). -/

/-- The controller's address counter points into DDRAM or CGRAM (R71, R72). -/
inductive LcdAddress where
  | ddram (a : Nat)
  | cgram (a : Nat)
deriving DecidableEq, Repr

/-- What is known of the controller: the address counter, whether entry mode is increment without shift, whether an
unlisted DDRAM byte is a space, the bytes known to stand in DDRAM and CGRAM, and how many transfers of the wake sequence it
has taken in a row. What is not known may be any value (I7, I9, I10). -/
structure LcdController where
  address : Option LcdAddress
  increments : Bool
  blank : Bool
  ddram : List Host.Cell
  cgram : List Host.Cell
  wake : Nat
deriving DecidableEq, Repr

/-- Nothing is known, n transfers into the wake sequence. -/
def LcdController.waking (n : Nat) : LcdController := ⟨none, false, false, [], [], n⟩

/-- The controller may be in any state: before any transfer (R291, I7), after a byte of I9 or a timing violation (I10). Only
a whole wake sequence leads out of it. -/
def LcdController.strayed : LcdController := LcdController.waking 0

/-- A byte put at an address of a list of known bytes, addresses strictly rising. -/
def putCell (a : Nat) (b : Byte) : List Host.Cell → List Host.Cell
  | [] => [(a, b)]
  | (x, y) :: rest =>
    if a < x then (a, b) :: (x, y) :: rest else if a = x then (a, b) :: rest else (x, y) :: putCell a b rest

/-- The known byte at an address of a list. -/
def cellAt (a : Nat) : List Host.Cell → Option Byte
  | [] => none
  | (x, y) :: rest => if a = x then some y else cellAt a rest

/-- The byte known to stand at a DDRAM address; after a clear an unwritten byte is a space (R199). -/
def LcdController.ddramAt (k : LcdController) (a : Nat) : Option Byte :=
  match cellAt a k.ddram with
  | some b => some b
  | none => if k.blank then some 0x20#8 else none

/-- The byte known to stand at a CGRAM address (R72). -/
def LcdController.cgramAt (k : LcdController) (a : Nat) : Option Byte := cellAt a k.cgram

/-- The address after a data byte: one on, inside the 7-bit DDRAM space or the 64 bytes of CGRAM (R71 to R73). -/
def LcdController.nextAddress (k : LcdController) (a : LcdAddress) : Option LcdAddress :=
  if k.increments then
    match a with
    | .ddram n => if n + 1 < 128 then some (.ddram (n + 1)) else none
    | .cgram n => if n + 1 < 64 then some (.cgram (n + 1)) else none
  else none

/-- A data byte is stored at the address counter, which then advances (R73, R110). -/
def LcdController.data (d : Byte) (k : LcdController) : LcdController :=
  match k.address with
  | some (.ddram n) => { k with ddram := putCell n d k.ddram, address := k.nextAddress (.ddram n) }
  | some (.cgram n) => { k with cgram := putCell n d k.cgram, address := k.nextAddress (.cgram n) }
  | none => { k with blank := false, ddram := [], cgram := [] }

/-- A command byte (R101 to R107, R199, R200). After a byte whose effect 93 I9 leaves any value nothing is known, whatever
bytes follow: a shift, a function set other than 0x28, an entry mode other than 0x06, a CGRAM address that is no slot's. A
CGRAM address that is a slot's is taken as createChar's (R241), since the bus does not tell a raw LCD_COMMAND from it (PRESUMED, log 17). -/
def LcdController.instruction (b : Byte) (k : LcdController) : LcdController :=
  match decodeBusCommand b with
  | .ok .busClearDisplay => { k with address := some (.ddram 0), blank := true, ddram := [] }
  | .ok (.busReturnHome _) => { k with address := some (.ddram 0) }
  | .ok (.busEntryModeSet _ _) => if b = 0x06#8 then { k with increments := true } else LcdController.strayed
  | .ok (.busDisplayControl _ _ _) => k
  | .ok (.busFunctionSet _ _ _ _) => if b = 0x28#8 then k else LcdController.strayed
  | .ok (.busSetCgramAddr a) =>
    if a.toNat % 8 = 0 then { k with address := some (.cgram a.toNat) } else LcdController.strayed
  | .ok (.busSetDdramAddr a) => { k with address := some (.ddram a.toNat) }
  | _ => LcdController.strayed

/-- How far the wake sequence of R195 has come after one more transfer, having come to n: three nibbles 0x3, the nibble
0x2 and the function set 0x28; 5 is the whole of it, and the count begins again with a transfer that breaks the order. -/
def wakeAfter (n : Nat) (t : BusTransfer) : Nat :=
  match t with
  | .nibble v => if v = 0x3#4 then (if n < 3 then n + 1 else if n = 3 then 3 else 1) else if v = 0x2#4 ∧ n = 3 then 4 else 0
  | .byte rs b => if n = 4 ∧ rs = false ∧ b = 0x28#8 then 5 else 0

/-- The controller after one transfer. Before the whole wake sequence it takes no byte in a known way (R291, I7), nor does
it after a nibble that begins the sequence anew. The sequence is taken to bring the controller into 4-bit mode from any
state, also after a byte of I9: R297 gives that as its purpose (PRESUMED, log 17). -/
def LcdController.receive (k : LcdController) (t : BusTransfer) : LcdController :=
  if k.wake = 5 then
    match t with
    | .byte true d => k.data d
    | .byte false b => k.instruction b
    | .nibble _ => LcdController.waking (wakeAfter k.wake t)
  else LcdController.waking (wakeAfter k.wake t)

/-- What is known of the controller after a trace: nothing once the trace broke LcdTraceWellTimed (R296, I10), else what
its transfers tell, from any state at the start (R291, I7). PRESUMED (log 17), since the delays are open parameters (R13)
and no trace shows these points: the waits of a pulse meet the setup and hold times, T_EXEC_US covers the execution time of
every byte but clear and home, whatever its value (R295 leaves open whether it does), the waits of the wake sequence
suffice, and the controller has power when LCD_INIT is issued; where one of these fails its state is any value (I7, I10,
R295, R297). -/
def lcdController (c : Config) (tr : List Event) : LcdController :=
  if lcdTraceWellTimed c tr then (busMonitor c tr).transfers.foldl LcdController.receive LcdController.strayed
  else LcdController.strayed

end Sys2Proof.Machine
end

