-- ==== Sys2Proof/Safety.lean ====
section
/-! DEFINITION. The terms the statements use: what a transfer looks like in the trace (R100, R190 to R195), what a run is,
the schedule premises of R270, R272 and R304, and the invariant of the block (R38, R49, R56). -/

namespace Sys2Proof.Machine

/-! A transfer in the trace, written out as the spec prints it. -/

/-- PULSE: the six events of pulseEnable (R190). -/
def pulseEvents (m : Mode) : List Event :=
  [.out .e false, .wait (.as m), .out .e true, .wait (.pw m), .out .e false, .wait (.h m)]

/-- NIB(v): the ten events of sendNibble (R191). -/
def nibbleEvents (m : Mode) (v : BitVec 4) : List Event :=
  [.out .d4 (v.getLsbD 0), .out .d5 (v.getLsbD 1), .out .d6 (v.getLsbD 2), .out .d7 (v.getLsbD 3)] ++ pulseEvents m

/-- CMD(b) and DAT(b): the 22 events of a byte transfer (R100, R192). -/
def byteEvents (m : Mode) (rs : Bool) (b : Byte) : List Event :=
  [.out .rs rs] ++ nibbleEvents m (b.extractLsb' 4 4) ++ nibbleEvents m (b.extractLsb' 0 4) ++ [.wait .exec]

/-- The events of a list of byte transfers. -/
def bytesEvents (m : Mode) (l : List (Bool × Byte)) : List Event := l.flatMap fun x => byteEvents m x.1 x.2

/-- The 136 events of LCD_INIT (R195, V-LCD-1). -/
def initEvents (m : Mode) : List Event :=
  [.out .rs false, .out .e false, .wait .powerOn]
    ++ nibbleEvents m 0x3#4 ++ [.wait .wake1]
    ++ nibbleEvents m 0x3#4 ++ [.wait .wake2]
    ++ nibbleEvents m 0x3#4 ++ [.wait .wake3]
    ++ nibbleEvents m 0x2#4 ++ [.wait .exec]
    ++ byteEvents m false 0x28#8 ++ byteEvents m false 0x0C#8 ++ byteEvents m false 0x06#8
    ++ byteEvents m false 0x01#8 ++ [.wait .long]

/-- The LCD pins after a nibble: the data lines hold it, E is low (R190, R191). -/
def Pins.afterNibble (v : BitVec 4) (f : Pins) : Pins :=
  { f with d4 := .ofBit (v.getLsbD 0), d5 := .ofBit (v.getLsbD 1), d6 := .ofBit (v.getLsbD 2),
           d7 := .ofBit (v.getLsbD 3), e := .low }

/-- The LCD pins after a byte: RS as sent, the data lines hold the low nibble, E is low (R192). -/
def Pins.afterByte (rs : Bool) (b : Byte) (f : Pins) : Pins :=
  Pins.afterNibble (b.extractLsb' 0 4) { f with rs := .ofBit rs }

/-- The LCD pins after a list of bytes: those after its last. -/
def Pins.afterBytes (l : List (Bool × Byte)) (f : Pins) : Pins :=
  match l.getLast? with
  | some x => f.afterByte x.1 x.2
  | none => f

/-- s after the bytes l, in the order sent, each with its register-select level: the trace and the LCD pins, nothing
else. -/
def State.sent (l : List (Bool × Byte)) (s : State) : State :=
  { s with trace := s.trace ++ bytesEvents s.mode l, pin := s.pin.afterBytes l }

/-- A command byte of a list for State.sent. -/
def cmdByte (b : Byte) : Bool × Byte := (false, b)

/-- The data bytes of a text for State.sent. -/
def dataBytes (text : List Byte) : List (Bool × Byte) := text.map fun b => (true, b)

/-- The transfers of CreateCharBody(s, bm) (R241). -/
def glyphBytes (slot : Nat) (bitmap : List Byte) : List (Bool × Byte) :=
  cmdByte (slotByte slot) :: dataBytes bitmap ++ [cmdByte 0x80#8]

/-! Kinds of instructions. -/

/-- The host commands (R94). -/
def isHostCommand (i : Instr) : Bool :=
  match encode i with
  | some (.host _) => true
  | _ => false

/-- The two Clock reads, which the callback may issue (R269). -/
def isClockRead (i : Instr) : Bool := i == .clkGetSeconds || i == .clkGetTotalHalfTicks

/-- The OP value of a host command's word (R90, R94); its group is OP / 0x20: 0 Clock, 1 KeyScanner, 2 and 3
CharDisplay. -/
def commandOp (i : Instr) : Option Nat :=
  match encode i with
  | some (.host c) => some (c.word.toNat / 2 ^ 24)
  | _ => none

/-- The match and mask of the 32 host commands as spec/opcode_table.json lists them. -/
def opcodeMasks : List (Word × Word) :=
  [
   (0x01000000#32, 0xFFFFFFFF#32), (0x02000000#32, 0xFFFFFFFF#32), (0x03000000#32, 0xFFFFFFFF#32), (0x04000000#32, 0xFFFFFFFF#32),
   (0x05000000#32, 0xFFFFFFFF#32), (0x06000000#32, 0xFFFFFFFF#32), (0x07000000#32, 0xFF000000#32), (0x20000000#32, 0xFFFFFFFF#32),
   (0x21000000#32, 0xFFFFFFFF#32), (0x22000000#32, 0xFFFFFFFF#32), (0x40000000#32, 0xFFFFFFFF#32), (0x41000000#32, 0xFFFFFF00#32),
   (0x42000000#32, 0xFFFFFF00#32), (0x43000000#32, 0xFFFF0000#32), (0x44000000#32, 0xFFFFFFFF#32), (0x45000000#32, 0xFFFFFFFF#32),
   (0x46000000#32, 0xFFFF0000#32), (0x47000000#32, 0xFFFFFFFF#32), (0x48000000#32, 0xFFFFFFFF#32), (0x49000000#32, 0xFFFFFFFF#32),
   (0x4A000000#32, 0xFFFFFFFF#32), (0x4B000000#32, 0xFFFFFFFF#32), (0x4C000000#32, 0xFFFFFFFF#32), (0x60000000#32, 0xFF00FE00#32),
   (0x61000000#32, 0xFFFFFFFF#32), (0x62000000#32, 0xFFFFFFFF#32), (0x63000000#32, 0xFFFFFFFE#32), (0x64000000#32, 0xFFFFFFFF#32),
   (0x65000000#32, 0xFFFFFFFF#32), (0x70000000#32, 0xFFFFFF00#32), (0x71000000#32, 0xFFFFFF00#32), (0x72000000#32, 0xFFFFFF00#32)]

/-- The OP values that R96 lists as unassigned. -/
def unassignedOp (op : Nat) : Bool :=
  op == 0x00 || (0x08 ≤ op && op ≤ 0x1F) || (0x23 ≤ op && op ≤ 0x3F) || (0x4D ≤ op && op ≤ 0x5F)
    || (0x66 ≤ op && op ≤ 0x6F) || (0x73 ≤ op && op ≤ 0xFF)

/-! Numbers of R10, R104 and R201, written as numbers. -/

/-- ROW_OFFSET as the list of R10. -/
def rowOffsetNat (row : Nat) : Nat := [0x00, 0x40, 0x14, 0x54].getD row 0

/-- The set-DDRAM-address command byte of R107 as a sum; it never carries (R201). -/
def ddramByte (col row : Nat) : Byte := BitVec.ofNat 8 (0x80 + (col + rowOffsetNat row))

/-- The display-control byte of R104 as a sum. -/
def dispByte (f : DispCtl) : Byte := BitVec.ofNat 8 (0x08 + 4 * f.d.toNat + 2 * f.c.toNat + f.b.toNat)

/-- The state with one more result word on the result port, for a command of the main flow. -/
def State.answered (v : Word) (s : State) : State := { s with replies := s.replies ++ [.result .mainFlow v] }

/-- The LCD bus is quiet after a trace: well timed so far, no wait owed, no half byte, E not high (R294, R296). -/
def lcdQuiet (c : Config) (tr : List Event) : Bool :=
  (busMonitor c tr).wellTimed && (busMonitor c tr).owed == 0 && (busMonitor c tr).pending == none
    && (busMonitor c tr).pin.e != .high

/-- A raw clear or home: LCD_COMMAND of byte 0x01, 0x02 or 0x03 (R296). -/
def isRawLong (i : Instr) : Bool :=
  i == .lcdCommand 0x01#8 || i == .lcdCommand 0x02#8 || i == .lcdCommand 0x03#8

/-! Runs and schedule premises. -/

/-- k steps (Host/Core.lean). -/
def runSteps (k : Nat) (s : State) : Outcome := Sys2Proof.core.run k s

/-- The instruction i executed n times in a row. -/
def execTimes (i : Instr) : Nat → State → Outcome
  | 0, s => .next s
  | n + 1, s =>
    match exec i s with
    | .next t => execTimes i n t
    | .fault r => .fault r
    | .refused r => .refused r

/-- A premise on the schedule holds at every state of the first k steps from s. -/
def Along (p : State → Bool) (k : Nat) (s : State) : Prop :=
  ∀ j, j < k → ∀ t, runSteps j s = .next t → p t = true

/-- CallbackFits at a state (R270): no tick is taken while a callback is active. -/
def State.callbackFits (s : State) : Bool :=
  match s.sched with
  | .tick :: _ => !(s.tickEnabled && s.clk.cbActive)
  | _ => true

/-- PromptPinChange at a state (R272): KPD_GET_KEY does not go on to its second half with a pin change pending. -/
def State.promptPinChange (s : State) : Bool :=
  match s.sched with
  | .host :: _ => !(s.hostEnabled && s.kp.gkPhase == .switched && s.kp.pcPending)
  | _ => true

/-- The instruction that the next step runs, if it runs one. -/
def State.nextInstr (s : State) : Option Instr :=
  if s.faulted then none
  else
    match s.sched with
    | .host :: _ =>
      if s.hostEnabled then
        match s.kp.gkPhase with
        | .switched => some .kpdGetKey
        | .idle => s.cmd.head?.bind fun c => (decodeHost c).toOption
      else none
    | .tick :: _ => if s.tickEnabled then some .evTick else none
    | .pinChange :: _ => if s.pinChangeEnabled then some .evPinchange else none
    | .cb :: _ => if s.cbEnabled then s.cbCmd.head?.bind fun c => (decodeHost c).toOption else none
    | .cbDone :: _ => if s.cbEnabled then some .evCbDone else none
    | .bus t :: _ => (decodeBus t).toOption
    | .press _ :: _ | .passTime _ :: _ | [] => none

/-- What a step is to TickPeriodic (R304): a tick, CLK_RESET, the later of CLK_CONFIGURE and CLK_START, CLK_STOP, or any
other step. -/
inductive TickMark where
  | tick
  | clkReset
  | armed
  | stopped
  | other
deriving DecidableEq, Repr

/-- The mark of a step from s to t. A CLK_START of a running Clock changes nothing (R131), so it is no mark. -/
def tickMark (s t : State) : TickMark :=
  if s.nextInstr = some .evTick then .tick
  else if s.nextInstr = some .clkReset ∧ s.clk.cbActive = false then .clkReset
  else if s.tickEnabled = false ∧ t.tickEnabled = true then .armed
  else if s.tickEnabled = true ∧ t.tickEnabled = false then .stopped
  else .other

/-- The marks of the first k steps from s, each with the time of ENV at which it is taken (R59), and the time at the
end. -/
def tickMarks : Nat → State → List (Nat × TickMark)
  | 0, s => [(s.env.timeMs, .other)]
  | k + 1, s =>
    match step s with
    | .next t => (s.env.timeMs, tickMark s t) :: tickMarks k t
    | _ => [(s.env.timeMs, .other)]

/-- TickPeriodic of R304 on marks with their times, due being when the next tick comes: at no mark is a tick overdue, a
tick comes exactly when it is due, and CLK_RESET, the arming and each tick put the next one a period on. Settled here, where
the distances that R304 asks for exclude each other (DESIGN CHOICE, log 19): the last of these events alone counts, so a
CLK_RESET between two ticks, or a stop and a later start between them, puts them other than a period apart; a CLK_STOP drops
the due time, also one that a CLK_RESET of the running Clock had set, and the first tick is counted from the later CLK_START
alone; a CLK_RESET of a Clock that is not both configured and running sets no due time, and the first tick is counted from
the arming alone; a CLK_RESET or a CLK_STOP in the very millisecond in which a tick is due may come before that tick, which
then does not come. -/
def tickPeriodic (period : Nat) : Option Nat → List (Nat × TickMark) → Bool
  | _, [] => true
  | due, (t, m) :: rest =>
    due.all (fun d => decide (t ≤ d)) &&
    match m with
    | .tick => due == some t && tickPeriodic period (some (t + period)) rest
    | .clkReset => tickPeriodic period (due.map fun _ => t + period) rest
    | .armed => tickPeriodic period (some (t + period)) rest
    | .stopped => tickPeriodic period none rest
    | .other => tickPeriodic period due rest

/-- TickPeriodic of R304 along the first k steps from s, where the next tick is due at due: none from reset. -/
def State.tickPeriodicRun (due : Option Nat) (k : Nat) (s : State) : Bool :=
  tickPeriodic s.cfg.tickPeriodMs due (tickMarks k s)

/-- A run of well-formed use so far: no refusal (R264) and no fault (R263). -/
def State.wellUsed (s : State) : Bool := !s.refused && !s.faulted

/-! The invariant. -/

/-- Every row pin is undriven (R48). -/
def Pins.rowsUndriven (f : Pins) : Bool :=
  f.row.i0 == .undriven && f.row.i1 == .undriven && f.row.i2 == .undriven && f.row.i3 == .undriven

/-- Every row pin is driven. -/
def Pins.rowsDriven (f : Pins) : Bool :=
  f.row.i0 != .undriven && f.row.i1 != .undriven && f.row.i2 != .undriven && f.row.i3 != .undriven

/-- Exactly one row is low, the one at r (R49). -/
def Pins.onlyRowLow (r : BitVec 2) (f : Pins) : Bool :=
  (f.row.i0 == .low) == (r == 0) && (f.row.i1 == .low) == (r == 1)
    && (f.row.i2 == .low) == (r == 2) && (f.row.i3 == .low) == (r == 3)

/-- The scroll invariants of R56. -/
def Display.scrollOk (maxLen : Nat) (l : Display) : Bool :=
  if l.scrollMode = .scrolling then
    decide (Config.lcdCols < l.scrollText.length) && decide (l.scrollText.length ≤ maxLen)
      && decide (l.scrollPosition < l.scrollText.length)
  else l.scrollText == [] && l.scrollPosition == 0

/-- How many issued commands have no reply yet: a KPD_GET_KEY in flight (R47), and a command that raised CallbackReentry
(R263). -/
def State.unanswered (s : State) : Nat :=
  (if s.kp.gkPhase = .switched then 1 else 0) + (if s.faults.callbackReentry then 1 else 0)

/-- The invariant of the block: it holds at reset and every step keeps it. -/
structure State.Inv (s : State) : Prop where
  /-- R13, R41, R264: the configuration is one an initial state is built from. -/
  config : s.cfg.valid = true
  /-- R51: LCD.simMode equals SIM_MODE. -/
  simMode : s.lcd.simMode = s.cfg.simMode
  /-- R56. -/
  scroll : s.lcd.scrollOk s.cfg.maxScrollLen = true
  /-- R55: glyphCount is 0 to 8. -/
  glyphs : s.lcd.glyphCount ≤ 8
  /-- R52, R209: before LCD_INIT nothing scrolls and no glyph was programmed. -/
  beforeLcdInit : s.lcd.initialised = false → s.lcd.scrollMode = .idle ∧ s.lcd.glyphCount = 0
  /-- R45, R46, R48, R160: before KPD_INIT no row is driven, no edge is latched and no scan is in flight. -/
  beforeKpdInit : s.kp.initialised = false →
    s.pin.rowsUndriven = true ∧ s.kp.pcPending = false ∧ s.kp.keyDetectedFlag = false ∧ s.kp.gkPhase = .idle
      ∧ s.kp.currentRow = 0 ∧ s.kp.lastDebounceTimestamp = 0
  /-- R161: from KPD_INIT on every row is driven. -/
  afterKpdInit : s.kp.initialised = true → s.pin.rowsDriven = true
  /-- R190: between steps E is not high. -/
  enable : s.pin.e ≠ .high
  /-- R136, R266, R269: a callback is active only while the Clock is configured and running with a callback. -/
  callback : s.clk.cbActive = true → s.clk.configured = true ∧ s.clk.running = true ∧ s.clk.callback ≠ 0
  /-- R262, R263: at most one fault kind is recorded, and only while a callback is active. -/
  fault : s.faulted = true →
    s.clk.cbActive = true ∧ (s.faults.tickOverrun && s.faults.callbackReentry) = false
  /-- R16: a time sample stands after events that are in the trace. -/
  samples : ∀ x ∈ s.timeSamples, x.1 ≤ s.trace.length
  /-- R93, R263, R264: every issued command is answered once, is in flight, or raised the fault. -/
  replied : s.issued.length = s.replies.length + s.unanswered

end Sys2Proof.Machine
end

