-- ==== Sys2Proof/Certificates/Slice0/Obligations.lean ====
section
/-! DEFINITION. The statements for the provers, from the numbered rules of spec/. Each states a whole next state, so it
states its frame too. -/

open Sys2Proof Sys2Proof.Machine

/-! Encoding (spec/30_encoding.md). -/

/-- R90 to R94, R100 to R110: decoding the encoding of a well-formed instruction gives the instruction. -/
def Obligations.DecodeOfEncodeGivesInstr : Prop :=
  ∀ i : Instr, i.wf = true → ∀ c, encode i = some c → decode c = some i

/-- R90 to R97: an encoding that decodes is the encoding of what it decodes to, which is well formed: each word has one
meaning and no operand bit is dropped. -/
def Obligations.EncodeOfDecodeGivesCode : Prop :=
  ∀ (c : Code) (i : Instr), decode c = some i → encode i = some c ∧ i.wf = true

/-- R92, R96: a word is refused as illegal exactly when it matches no row of the opcode table. -/
def Obligations.IllegalExactlyWhenNoRowMatches : Prop :=
  ∀ (w : Word) (p : List Byte),
    decodeHost ⟨w, p⟩ = .error .illegalCommand ↔ ∀ r ∈ opcodeMasks, w &&& r.2 ≠ r.1

/-- R96: an unassigned OP, or a 1 in a reserved bit, is refused with IllegalCommand: only the mark and the records of
the port change. -/
def Obligations.IllegalCommandChangesNothing : Prop :=
  ∀ (w : Word) (p : List Byte) (s : State),
    (unassignedOp (w.toNat / 2 ^ 24) = true ∨ ∀ r ∈ opcodeMasks, w &&& r.2 ≠ r.1) →
    issue ⟨w, p⟩ s = .next { s with
      refused := true
      issued := s.issued ++ [(s.context, ⟨w, p⟩)]
      replies := s.replies ++ [.refused s.context .illegalCommand] }

/-- R91, R92: a command word with a payload of another length than it demands is refused with BadPayload, but for
LCD_CREATE_CHARS with a count above 8, which takes any length. -/
def Obligations.WrongPayloadLengthRefused : Prop :=
  ∀ (i : Instr) (c : Command) (p : List Byte) (s : State), i.wf = true → encode i = some (.host c) →
    (∀ n bm, i = .lcdCreateChars n bm → n.toNat ≤ 8) → p.length ≠ c.payload.length →
    issue ⟨c.word, p⟩ s = .next { s with
      refused := true
      issued := s.issued ++ [(s.context, ⟨c.word, p⟩)]
      replies := s.replies ++ [.refused s.context .badPayload] }

/-- R95: the internal operations have no encoding, and no host command decodes to anything but a host command. -/
def Obligations.InternalOperationsAreNotIssuable : Prop :=
  (∀ i ∈ [Instr.evTick, .evPinchange, .evCbDone, .pulseEnable], encode i = none)
    ∧ (∀ (v b : Byte) (rs : Bool), encode (.sendNibble v) = none ∧ encode (.sendByte rs b) = none
        ∧ encode (.command b) = none ∧ encode (.writeChar b) = none)
    ∧ (∀ (c : Command) (i : Instr), decodeHost c = .ok i → encode i = some (.host c))

/-- Words of the vectors ENC-2, ENC-3, ENC-4, ENC-5, ENC-6, ENC-10 and V-SRC-8. -/
def Obligations.VectorWordsDecode : Prop :=
  decodeHost ⟨0x07000123#32, []⟩ = .ok (.clkSetTickCallback 0x000123#24)
    ∧ decodeHost ⟨0x46000501#32, []⟩ = .ok (.lcdSetCursor 5#8 1#8)
    ∧ decodeHost ⟨0x43000002#32, [0x48#8, 0x49#8]⟩ = .ok (.lcdPrint [0x48#8, 0x49#8])
    ∧ decodeHost ⟨0x60000111#32, List.replicate 17 0x41#8⟩ = .ok (.lcdStartScroll 0#8 .right (List.replicate 17 0x41#8))
    ∧ decodeHost ⟨0x63000001#32, []⟩ = .ok (.lcdSetScrollDirection .right)
    ∧ decodeHost ⟨0x60000211#32, List.replicate 17 0x41#8⟩ = .error .illegalCommand
    ∧ decodeHost ⟨0x70000008#32, List.replicate 8 0x1F#8⟩ = .ok (.lcdCreateChar 8#8 (List.replicate 8 0x1F#8))

/-! Steps (spec/00_scope.md R9, R17, R19, R31; spec/60_exceptions.md). -/

/-- A step runs the decoded instruction: HOST's turn with no command in flight issues the command at the head of the
port (R31, R166, R266); while a callback is active CB's turn issues the callback's next command (R268, R269); a command
that does not decode is refused there (R281); the model's own bus input runs the bus encoding it carries (log 11). -/
def Obligations.StepRunsDecodedInstruction : Prop :=
  ∀ (s : State) (rest : List Choice), s.faulted = false →
    (∀ (c : Command) (cs : List Command), s.clk.cbActive = false → s.kp.gkPhase = .idle → s.sched = .host :: rest →
      s.cmd = c :: cs →
      (∀ i, decodeHost c = .ok i →
        step s = exec i { s with sched := rest, cmd := cs, issued := s.issued ++ [(.mainFlow, c)] })
      ∧ ∀ r, decodeHost c = .error r → step s = .next { s with
          sched := rest, cmd := cs, refused := true, issued := s.issued ++ [(.mainFlow, c)]
          replies := s.replies ++ [.refused .mainFlow r] })
    ∧ (∀ (c : Command) (cs : List Command), s.clk.cbActive = true → s.sched = .cb :: rest → s.cbCmd = c :: cs →
      (∀ i, decodeHost c = .ok i →
        step s = exec i { s with sched := rest, cbCmd := cs, issued := s.issued ++ [(.callback, c)] })
      ∧ ∀ r, decodeHost c = .error r → step s = .next { s with
          sched := rest, cbCmd := cs, refused := true, issued := s.issued ++ [(.callback, c)]
          replies := s.replies ++ [.refused .callback r] })
    ∧ ∀ (x : BusTransfer) (i : Instr), decodeBus x = .ok i → s.sched = .bus x :: rest →
      step s = exec i { s with sched := rest }

/-- HOST goes on with a KPD_GET_KEY in flight and issues nothing else (R164, R166); while a callback is active HOST takes
no step (R266). -/
def Obligations.HostResumesScanOrWaits : Prop :=
  ∀ (s : State) (rest : List Choice), s.faulted = false → s.sched = .host :: rest →
    (s.clk.cbActive = false → s.kp.gkPhase = .switched → step s = exec .kpdGetKey { s with sched := rest })
      ∧ (s.clk.cbActive = true → step s = .next { s with sched := rest })

/-- The interrupt agents take their handler's step exactly when enabled (R136, R168, R265, R268, R274). -/
def Obligations.InterruptsTakenWhenEnabled : Prop :=
  ∀ (s : State) (rest : List Choice), s.faulted = false →
    (s.sched = .tick :: rest →
      step s = if s.clk.configured && s.clk.running then exec .evTick { s with sched := rest }
        else .next { s with sched := rest })
    ∧ (s.sched = .pinChange :: rest →
      step s = if s.kp.pcPending && !s.clk.cbActive then exec .evPinchange { s with sched := rest }
        else .next { s with sched := rest })
    ∧ (s.sched = .cbDone :: rest →
      step s = if s.clk.cbActive then exec .evCbDone { s with sched := rest } else .next { s with sched := rest })

/-- R58, R59, R46, R271: ENV replaces the pressed keys, and an armed detector latches any change of the column levels;
ENV lets the time source advance. -/
def Obligations.EnvironmentSteps : Prop :=
  ∀ (s : State) (rest : List Choice), s.faulted = false →
    (∀ keys, s.sched = .press keys :: rest → ∃ t, step s = .next t
      ∧ t = { s with sched := rest, env := { s.env with pressed := keys }, kp := { s.kp with pcPending := t.kp.pcPending } }
      ∧ (t.kp.pcPending = true ↔ s.kp.pcPending = true ∨ (s.kp.initialised = true ∧ t.colLevel ≠ s.colLevel)))
    ∧ (∀ ms, s.sched = .passTime ms :: rest →
      step s = .next { s with sched := rest, env := { s.env with timeMs := s.env.timeMs + ms } })

/-- R58: a column reads 0 exactly when a closed key of it lies in a row driven low. -/
def Obligations.ColumnLevelLaw : Prop :=
  ∀ (s : State) (c : BitVec 2),
    s.colLevel.getLsbD c.toNat = false ↔ ∃ r : BitVec 2, Grid.at s.env.pressed r c = true ∧ Four.get s.pin.row r = .low

/-- R263: once a fault kind is recorded the block is stuck. -/
def Obligations.StuckOnceFaulted : Prop :=
  ∀ s : State, s.faulted = true → step s = .fault .stuck

/-- R57, R263, R264: faults and the refusal mark are never cleared; the trace and the records of the port only grow; the
configuration is fixed; time never goes back. -/
def Obligations.MarksAndTraceOnlyGrow : Prop :=
  ∀ s t : State, step s = .next t →
    (s.refused = true → t.refused = true) ∧ s.faulted = false
      ∧ s.trace <+: t.trace ∧ s.timeSamples <+: t.timeSamples ∧ s.issued <+: t.issued ∧ s.replies <+: t.replies
      ∧ t.cfg = s.cfg ∧ t.lcd.simMode = s.lcd.simMode ∧ s.env.timeMs ≤ t.env.timeMs

/-! Clock (spec/40_clock.md). -/

/-- R131, R132: start and stop write running only; in callback context each raises CallbackReentry. -/
def Obligations.StartAndStopResults : Prop :=
  ∀ s : State,
    (s.clk.cbActive = false →
      exec .clkStart s = .next (State.answered 0 { s with clk := { s.clk with running := true } })
      ∧ exec .clkStop s = .next (State.answered 0 { s with clk := { s.clk with running := false } }))
    ∧ (s.clk.cbActive = true →
      exec .clkStart s = .next { s with faults := { s.faults with callbackReentry := true } }
      ∧ exec .clkStop s = .next { s with faults := { s.faults with callbackReentry := true } })

/-- R130, R134, R140 and R85 in main flow: configure sets configured once, reset zeroes both counters in one step, setTickCallback
writes the handle. -/
def Obligations.ConfigureResetCallbackResults : Prop :=
  ∀ s : State, s.clk.cbActive = false →
    (s.clk.configured = false →
      exec .clkConfigure s = .next (State.answered 0 { s with clk := { s.clk with configured := true } }))
    ∧ (s.clk.configured = true →
      exec .clkConfigure s = .next { s with refused := true, replies := s.replies ++ [.refused .mainFlow .reInit] })
    ∧ exec .clkReset s =
      .next (State.answered 0 { s with clk := { s.clk with secondsElapsed := 0, halfSecondPhase := 0 } })
    ∧ ∀ h, exec (.clkSetTickCallback h) s = .next (State.answered 0 { s with clk := { s.clk with callback := h } })

/-- R138, R139: the two reads return the seconds and (2*s + p) mod 2^32, in either context, and change nothing else. -/
def Obligations.ClockReadsReturnSnapshot : Prop :=
  ∀ s : State,
    exec .clkGetSeconds s = .next { s with replies := s.replies ++ [.result s.context s.clk.secondsElapsed] }
    ∧ exec .clkGetTotalHalfTicks s = .next { s with
        replies := s.replies ++ [.result s.context
          (BitVec.ofNat 32 ((2 * s.clk.secondsElapsed.toNat + s.clk.halfSecondPhase.toNat) % 2 ^ 32))] }

/-- R136, R82, R137, R141: the tick toggles the phase, carries on the wrap to 0, and then starts the callback, if any. -/
def Obligations.TickCountsThenCallsBack : Prop :=
  ∀ s : State, s.clk.running = true → s.clk.cbActive = false →
    ∃ t, exec .evTick s = .next t
      ∧ 2 * t.clk.secondsElapsed.toNat + t.clk.halfSecondPhase.toNat
          = (2 * s.clk.secondsElapsed.toNat + s.clk.halfSecondPhase.toNat + 1) % 2 ^ 33
      ∧ t = { s with
          clk := { s.clk with secondsElapsed := t.clk.secondsElapsed, halfSecondPhase := t.clk.halfSecondPhase,
                              cbActive := decide (s.clk.callback ≠ 0) }
          trace := s.trace ++ (if s.clk.callback = 0 then [] else [.callback s.clk.callback]) }

/-- R142, R38: from zero counters, configured and running, N ticks (each callback completing before the next tick) give
N mod 2^32 half ticks and (N div 2) mod 2^32 seconds. -/
def Obligations.CountingLaw : Prop :=
  ∀ (n : Nat) (s : State) (rest : List Choice),
    s.faulted = false → s.clk.configured = true → s.clk.running = true → s.clk.cbActive = false →
    s.clk.secondsElapsed = 0 → s.clk.halfSecondPhase = 0 →
    s.sched = (List.replicate n [Choice.tick, Choice.cbDone]).flatten ++ rest →
    ∃ t, runSteps (2 * n) s = .next t ∧ t.sched = rest
      ∧ exec .clkGetTotalHalfTicks t = .next (State.answered (BitVec.ofNat 32 n) t)
      ∧ exec .clkGetSeconds t = .next (State.answered (BitVec.ofNat 32 (n / 2)) t)
      ∧ t.kp = s.kp ∧ t.lcd = s.lcd ∧ t.pin = s.pin ∧ t.faults = s.faults ∧ t.refused = s.refused

/-- R133: after stop any number of ticks changes nothing, and start resumes from the frozen counters. -/
def Obligations.StoppedClockStaysFrozen : Prop :=
  ∀ (n : Nat) (s u : State) (rest : List Choice),
    s.faulted = false → s.clk.cbActive = false → exec .clkStop s = .next u →
    runSteps n { u with sched := List.replicate n .tick ++ rest } = .next { u with sched := rest }
      ∧ exec .clkStart { u with sched := rest }
        = .next (State.answered 0 { u with sched := rest, clk := { s.clk with running := true } })

/-- R269: in callback context a word is decoded first and an illegal one refused, the two Clock reads return their result
to the callback, and every other host command raises CallbackReentry and has no effect. -/
def Obligations.CallbackMayOnlyReadClock : Prop :=
  ∀ s : State, s.clk.cbActive = true →
    (∀ (c : Command) (r : Reason), decodeHost c = .error r → issue c s = .next { s with
      refused := true
      issued := s.issued ++ [(.callback, c)]
      replies := s.replies ++ [.refused .callback r] })
    ∧ exec .clkGetSeconds s = .next { s with replies := s.replies ++ [.result .callback s.clk.secondsElapsed] }
    ∧ exec .clkGetTotalHalfTicks s = .next { s with
        replies := s.replies ++ [.result .callback
          (BitVec.ofNat 32 ((2 * s.clk.secondsElapsed.toNat + s.clk.halfSecondPhase.toNat) % 2 ^ 32))] }
    ∧ ∀ i : Instr, isHostCommand i = true → isClockRead i = false →
        exec i s = .next { s with faults := { s.faults with callbackReentry := true } }

/-- R270: along a run that meets CallbackFits no TickOverrun is raised. -/
def Obligations.CallbackFitsPreventsOverrun : Prop :=
  ∀ (k : Nat) (s t : State), s.faults.tickOverrun = false → Along State.callbackFits k s → runSteps k s = .next t →
    t.faults.tickOverrun = false

/-- R136, R168, R268, R270, R272: a tick handler entered while stopped changes nothing; a tick during an active callback
records TickOverrun before it touches the counters; the pin-change handler clears the latch and sets the flag; the
callback's completion clears cbActive; the tick and the pin-change handler commute. -/
def Obligations.HandlersGuardedAndCommute : Prop :=
  ∀ s : State,
    (s.clk.running = false → exec .evTick s = .next s)
    ∧ (s.clk.running = true → s.clk.cbActive = true →
        exec .evTick s = .next { s with faults := { s.faults with tickOverrun := true } })
    ∧ exec .evPinchange s = .next { s with kp := { s.kp with pcPending := false, keyDetectedFlag := true } }
    ∧ exec .evCbDone s = .next { s with clk := { s.clk with cbActive := false } }
    ∧ ∃ t u v, exec .evTick s = .next t ∧ exec .evPinchange s = .next u ∧ exec .evPinchange t = .next v
      ∧ exec .evTick u = .next v

/-! KeyScanner (spec/41_keypad.md). -/

/-- R161: KPD_INIT drives all rows low in index order and arms the detector. -/
def Obligations.KpdInitDrivesAllRowsLow : Prop :=
  ∀ s : State, s.clk.cbActive = false →
    (s.kp.initialised = false → exec .kpdInit s = .next (State.answered 0 { s with
      pin := { s.pin with row := ⟨.low, .low, .low, .low⟩ }
      trace := s.trace ++ [.out (.row 0) false, .out (.row 1) false, .out (.row 2) false, .out (.row 3) false]
      kp := { s.kp with pcPending := false, initialised := true } }))
    ∧ (s.kp.initialised = true →
      exec .kpdInit s = .next { s with refused := true, replies := s.replies ++ [.refused .mainFlow .reInit] })

/-- R162, R160: before init the call is refused; with the debounce window open it returns NOKEY and changes nothing but
the record of the time sample (R16; log 9). -/
def Obligations.GetKeyGateRejects : Prop :=
  ∀ s : State, s.clk.cbActive = false → s.kp.gkPhase = .idle →
    (s.kp.initialised = false →
      exec .kpdGetKey s = .next { s with refused := true, replies := s.replies ++ [.refused .mainFlow .notInitialised] })
    ∧ (s.kp.initialised = true →
      (BitVec.ofNat 32 s.env.timeMs - s.kp.lastDebounceTimestamp).toNat < s.cfg.debounceMs →
      exec .kpdGetKey s = .next (State.answered 0
        { s with timeSamples := s.timeSamples ++ [(s.trace.length, BitVec.ofNat 32 s.env.timeMs)] }))

/-- R164, R165, R16: a call that passes the gate raises the row, advances modulo 4, lowers the new row, waits and suspends;
a change of the column levels at either of the two Outs is latched, even one that the second reverts, and nothing else sets
the latch (R46). -/
def Obligations.GetKeySwitchesRow : Prop :=
  ∀ s : State, s.clk.cbActive = false → s.kp.gkPhase = .idle → s.kp.initialised = true →
    s.cfg.debounceMs ≤ (BitVec.ofNat 32 s.env.timeMs - s.kp.lastDebounceTimestamp).toNat →
    ∃ t, exec .kpdGetKey s = .next t
      ∧ t = { s with
          pin := { s.pin with row := t.pin.row }
          trace := s.trace ++ [.out (.row s.kp.currentRow) true, .out (.row (s.kp.currentRow + 1)) false, .wait .settle]
          timeSamples := s.timeSamples ++ [(s.trace.length, BitVec.ofNat 32 s.env.timeMs)]
          kp := { s.kp with currentRow := BitVec.ofNat 2 ((s.kp.currentRow.toNat + 1) % 4), pcPending := t.kp.pcPending,
                            gkTime := BitVec.ofNat 32 s.env.timeMs, gkPhase := .switched } }
      ∧ Four.get t.pin.row s.kp.currentRow = .high ∧ Four.get t.pin.row t.kp.currentRow = .low
      ∧ (∀ r, r ≠ s.kp.currentRow → r ≠ t.kp.currentRow → Four.get t.pin.row r = Four.get s.pin.row r)
      ∧ ∃ m : State, m = { s with pin := { s.pin with row := Four.set s.pin.row s.kp.currentRow .high } }
          ∧ (t.kp.pcPending = true ↔
              s.kp.pcPending = true ∨ m.colLevel ≠ s.colLevel ∨ t.colLevel ≠ m.colLevel)
          ∧ ((∀ x ∈ s.timeSamples, x.1 ≤ s.trace.length) →
              t.events = s.events ++ [.now (BitVec.ofNat 32 s.env.timeMs), .out (.row s.kp.currentRow) true,
                .out (.row (s.kp.currentRow + 1)) false, .wait .settle])

/-- R164, R166, R167: the second half clears the flag; with the flag clear it samples nothing; with no column low it
returns NOKEY; else the lowest low column gives the symbol and the call's own time sample is stamped. -/
def Obligations.GetKeySecondHalfResult : Prop :=
  ∀ s : State, s.clk.cbActive = false → s.kp.gkPhase = .switched →
    (s.kp.keyDetectedFlag = false → exec .kpdGetKey s = .next (State.answered 0
      { s with kp := { s.kp with gkPhase := .idle } }))
    ∧ (s.kp.keyDetectedFlag = true → (∀ c : BitVec 2, s.colLevel.getLsbD c.toNat = true) →
      exec .kpdGetKey s = .next (State.answered 0 { s with
        trace := s.trace ++ [.inCols s.colLevel]
        kp := { s.kp with keyDetectedFlag := false, gkPhase := .idle } }))
    ∧ (∀ c : BitVec 2, s.kp.keyDetectedFlag = true → s.colLevel.getLsbD c.toNat = false →
      (∀ d : BitVec 2, d.toNat < c.toNat → s.colLevel.getLsbD d.toNat = true) →
      exec .kpdGetKey s = .next (State.answered ((Grid.at s.cfg.keymap s.kp.currentRow c).setWidth 32) { s with
        trace := s.trace ++ [.inCols s.colLevel]
        kp := { s.kp with keyDetectedFlag := false, gkPhase := .idle, lastDebounceTimestamp := s.kp.gkTime } }))

/-- R171: after a call that returned a key, any later call inside the debounce window, with no other key accepted in
between, returns NOKEY and changes nothing but the record of the time sample (R16; log 9). -/
def Obligations.DebounceLaw : Prop :=
  ∀ (s t u : State) (c : BitVec 2), s.clk.cbActive = false → s.kp.gkPhase = .switched → s.kp.keyDetectedFlag = true →
    s.colLevel.getLsbD c.toNat = false → exec .kpdGetKey s = .next t →
    u.clk.cbActive = false → u.kp.gkPhase = .idle → u.kp.initialised = true → u.cfg = t.cfg →
    u.kp.lastDebounceTimestamp = t.kp.lastDebounceTimestamp →
    (BitVec.ofNat 32 u.env.timeMs - s.kp.gkTime).toNat < u.cfg.debounceMs →
    exec .kpdGetKey u = .next (State.answered 0
      { u with timeSamples := u.timeSamples ++ [(u.trace.length, BitVec.ofNat 32 u.env.timeMs)] })

/-- R170: four gate-passing calls activate each row exactly once, in round-robin order. The states a, b, c, d are those
at the starts of the calls; between and inside the calls other agents may run, which never write currentRow. -/
def Obligations.RoundRobinVisitsEveryRow : Prop :=
  ∀ (a b c d a' b' c' d' : State),
    (∀ x ∈ [a, b, c, d], x.clk.cbActive = false ∧ x.kp.gkPhase = .idle ∧ x.kp.initialised = true
      ∧ x.cfg.debounceMs ≤ (BitVec.ofNat 32 x.env.timeMs - x.kp.lastDebounceTimestamp).toNat) →
    exec .kpdGetKey a = .next a' → exec .kpdGetKey b = .next b' → exec .kpdGetKey c = .next c' →
    exec .kpdGetKey d = .next d' →
    b.kp.currentRow = a'.kp.currentRow → c.kp.currentRow = b'.kp.currentRow → d.kp.currentRow = c'.kp.currentRow →
    [a'.kp.currentRow, b'.kp.currentRow, c'.kp.currentRow, d'.kp.currentRow]
        = [a.kp.currentRow + 1, a.kp.currentRow + 2, a.kp.currentRow + 3, a.kp.currentRow]
      ∧ Four.get a'.pin.row a'.kp.currentRow = .low ∧ Four.get b'.pin.row b'.kp.currentRow = .low
      ∧ Four.get c'.pin.row c'.kp.currentRow = .low ∧ Four.get d'.pin.row d'.kp.currentRow = .low
      ∧ ∀ r : BitVec 2, ∃ x ∈ [a', b', c', d'], x.kp.currentRow = r

/-- R49: KPD_INIT leaves all rows low; each gate-passing call raises the current row, advances it and lowers the new one;
of the calls after init, exactly the current row is low from the third on and not before. Between the calls other agents
may run, which never write currentRow or a row pin. A call from exactly-one-low keeps it so. -/
def Obligations.OneRowLowFromThirdSwitch : Prop :=
  (∀ s t : State, s.clk.cbActive = false → s.kp.initialised = false → exec .kpdInit s = .next t →
    t.pin.row = ⟨.low, .low, .low, .low⟩)
  ∧ (∀ (n : Nat) (x y : Nat → State),
    (∀ k, k ≤ n → (x k).clk.cbActive = false ∧ (x k).kp.gkPhase = .idle ∧ (x k).kp.initialised = true
      ∧ (x k).cfg.debounceMs ≤ (BitVec.ofNat 32 (x k).env.timeMs - (x k).kp.lastDebounceTimestamp).toNat
      ∧ exec .kpdGetKey (x k) = .next (y k)) →
    (∀ k, k < n → (x (k + 1)).kp.currentRow = (y k).kp.currentRow ∧ (x (k + 1)).pin.row = (y k).pin.row) →
    (x 0).pin.row = ⟨.low, .low, .low, .low⟩ →
    (y n).kp.currentRow = BitVec.ofNat 2 (((x n).kp.currentRow.toNat + 1) % 4)
      ∧ Four.get (y n).pin.row (x n).kp.currentRow = .high ∧ Four.get (y n).pin.row (y n).kp.currentRow = .low
      ∧ ((y n).pin.onlyRowLow (y n).kp.currentRow = true ↔ 2 ≤ n))
  ∧ ∀ s t : State, s.clk.cbActive = false → s.kp.gkPhase = .idle → s.kp.initialised = true →
    s.cfg.debounceMs ≤ (BitVec.ofNat 32 s.env.timeMs - s.kp.lastDebounceTimestamp).toNat →
    s.pin.onlyRowLow s.kp.currentRow = true → exec .kpdGetKey s = .next t →
    t.pin.onlyRowLow t.kp.currentRow = true

/-- R172, R49, R58, R166: with only the current row low and one key (r, c) held, the gate-passing call that activates
row r returns its symbol, if the pin change is taken before the second half (PromptPinChange). -/
def Obligations.HeldKeyFoundWhenItsRowIsActivated : Prop :=
  ∀ (s : State) (r c : BitVec 2) (rest : List Choice) (cs : List Command),
    s.faulted = false → s.clk.cbActive = false → s.kp.initialised = true → s.kp.gkPhase = .idle →
    s.pin.onlyRowLow s.kp.currentRow = true → s.kp.currentRow + 1 = r →
    (∀ x y : BitVec 2, Grid.at s.env.pressed x y = true ↔ x = r ∧ y = c) →
    s.cfg.debounceMs ≤ (BitVec.ofNat 32 s.env.timeMs - s.kp.lastDebounceTimestamp).toNat →
    s.sched = .host :: .pinChange :: .host :: rest → s.cmd = ⟨0x21000000#32, []⟩ :: cs →
    ∃ t, runSteps 3 s = .next t ∧ t.sched = rest ∧ t.cmd = cs
      ∧ t.replies = s.replies ++ [.result .mainFlow ((Grid.at s.cfg.keymap r c).setWidth 32)]
      ∧ t.kp.currentRow = r ∧ t.kp.keyDetectedFlag = false
      ∧ t.kp.lastDebounceTimestamp = BitVec.ofNat 32 s.env.timeMs ∧ t.pin.onlyRowLow r = true

/-- R169: the status word, and nothing changes; from callback context CallbackReentry. -/
def Obligations.KpdStatusResult : Prop :=
  ∀ s : State,
    (s.clk.cbActive = false → exec .kpdStatus s =
      .next (State.answered (BitVec.ofNat 32 (4 * s.kp.keyDetectedFlag.toNat + s.kp.currentRow.toNat)) s))
    ∧ (s.clk.cbActive = true → exec .kpdStatus s = .next { s with faults := { s.faults with callbackReentry := true } })

/-! CharDisplay (spec/42_lcd_protocol.md). -/

/-- R190 to R194: the trace and the pins of the micro-operations, and nothing else. That one run alone as an instruction
checks no context and no initialisation and has no result is the model's reading (DEDUCED, log 14). -/
def Obligations.MicroOperationTraces : Prop :=
  ∀ (s : State) (v b : Byte) (rs : Bool),
    exec .pulseEnable s = .next { s with trace := s.trace ++ pulseEvents s.mode, pin := { s.pin with e := .low } }
    ∧ exec (.sendNibble v) s = .next { s with
        trace := s.trace ++ nibbleEvents s.mode (v.extractLsb' 0 4), pin := s.pin.afterNibble (v.extractLsb' 0 4) }
    ∧ exec (.sendByte rs b) s = .next { s with
        trace := s.trace ++ byteEvents s.mode rs b, pin := s.pin.afterByte rs b }
    ∧ exec (.command b) s = exec (.sendByte false b) s
    ∧ exec (.writeChar b) s = exec (.sendByte true b) s

/-- R195: LCD_INIT emits its 136 events and sets the shadow; a repeat is refused. -/
def Obligations.LcdInitResult : Prop :=
  ∀ s : State, s.clk.cbActive = false →
    (initEvents s.mode).length = 136
    ∧ (s.lcd.initialised = false → exec .lcdInit s = .next (State.answered 0 { s with
        trace := s.trace ++ initEvents s.mode
        pin := { s.pin with rs := .low, e := .low, d4 := .high, d5 := .low, d6 := .low, d7 := .low }
        lcd := { s.lcd with dispCtl := ⟨true, false, false⟩, initialised := true } }))
    ∧ (s.lcd.initialised = true →
        exec .lcdInit s = .next { s with refused := true, replies := s.replies ++ [.refused .mainFlow .reInit] })

/-- R209, R264: before LCD_INIT every CharDisplay command but LCD_INIT and the two scroll reads is refused with
NotInitialised and changes nothing. -/
def Obligations.LcdCommandsRefusedBeforeInit : Prop :=
  ∀ (i : Instr) (op : Nat) (s : State), s.clk.cbActive = false → s.lcd.initialised = false →
    commandOp i = some op → 0x41 ≤ op → i ≠ .lcdIsScrolling → i ≠ .lcdGetScrollPosition →
    exec i s = .next { s with refused := true, replies := s.replies ++ [.refused .mainFlow .notInitialised] }

/-- R196, R197, R111: a raw command or data byte is sent unchanged; no shadow, no scroll state, no long wait. -/
def Obligations.RawByteResults : Prop :=
  ∀ (s : State) (b : Byte), s.clk.cbActive = false → s.lcd.initialised = true →
    exec (.lcdCommand b) s = .next (State.answered 0 { s with
      trace := s.trace ++ byteEvents s.mode false b, pin := s.pin.afterByte false b })
    ∧ exec (.lcdWriteChar b) s = .next (State.answered 0 { s with
      trace := s.trace ++ byteEvents s.mode true b, pin := s.pin.afterByte true b })

/-- R198, R264: print sends each byte of the text in order; a text above MAX_TEXT is refused. -/
def Obligations.PrintSendsEachByte : Prop :=
  ∀ (s : State) (text : List Byte), s.clk.cbActive = false → s.lcd.initialised = true →
    (text.length ≤ s.cfg.maxText → exec (.lcdPrint text) s = .next (State.answered 0 { s with
      trace := s.trace ++ text.flatMap (byteEvents s.mode true)
      pin := (text.getLast?.map fun b => s.pin.afterByte true b).getD s.pin }))
    ∧ (s.cfg.maxText < text.length →
      exec (.lcdPrint text) s = .next { s with refused := true, replies := s.replies ++ [.refused .mainFlow .badPayload] })

/-- R199, R200: clear and home send their byte and wait the long recovery; the scroll state is not changed. -/
def Obligations.ClearAndHomeResults : Prop :=
  ∀ s : State, s.clk.cbActive = false → s.lcd.initialised = true →
    exec .lcdClear s = .next (State.answered 0 { s with
      trace := s.trace ++ byteEvents s.mode false 0x01#8 ++ [.wait .long], pin := s.pin.afterByte false 0x01#8 })
    ∧ exec .lcdHome s = .next (State.answered 0 { s with
      trace := s.trace ++ byteEvents s.mode false 0x02#8 ++ [.wait .long], pin := s.pin.afterByte false 0x02#8 })

/-- R201, R202: set cursor sends 0x80 plus the address; a row of 4 or more or a column of 16 or more is refused. -/
def Obligations.SetCursorResult : Prop :=
  ∀ (s : State) (col row : Byte), s.clk.cbActive = false → s.lcd.initialised = true →
    (col.toNat < 16 → row.toNat < 4 → exec (.lcdSetCursor col row) s = .next (State.answered 0 { s with
      trace := s.trace ++ byteEvents s.mode false (ddramByte col.toNat row.toNat)
      pin := s.pin.afterByte false (ddramByte col.toNat row.toNat) }))
    ∧ (16 ≤ col.toNat ∨ 4 ≤ row.toNat → exec (.lcdSetCursor col row) s =
      .next { s with refused := true, replies := s.replies ++ [.refused .mainFlow .operandRange] })

/-- R203 to R208: each toggle writes its one bit of the shadow and sends the whole display-control byte. -/
def Obligations.ToggleResults : Prop :=
  ∀ (s : State) (i : Instr) (f : DispCtl), s.clk.cbActive = false → s.lcd.initialised = true →
    (i, f) ∈ [(Instr.lcdDisplayOn, { s.lcd.dispCtl with d := true }), (.lcdDisplayOff, { s.lcd.dispCtl with d := false }),
              (.lcdCursorOn, { s.lcd.dispCtl with c := true }), (.lcdCursorOff, { s.lcd.dispCtl with c := false }),
              (.lcdBlinkOn, { s.lcd.dispCtl with b := true }), (.lcdBlinkOff, { s.lcd.dispCtl with b := false })] →
    exec i s = .next (State.answered 0 { s with
      lcd := { s.lcd with dispCtl := f }
      trace := s.trace ++ byteEvents s.mode false (dispByte f)
      pin := s.pin.afterByte false (dispByte f) })

/-! Scroll and glyphs (spec/43_lcd_scroll_glyph.md). -/

/-- R230, R231, R264, R281: a text of at most 16 bytes is drawn centred on the row after a clear, and no text is kept; a
longer text is kept, with no bus activity; a row of 4 or more is refused, before a text above MAX_SCROLL_LEN is. -/
def Obligations.StartScrollResult : Prop :=
  ∀ (s : State) (row : Byte) (dir : Direction) (text : List Byte), s.clk.cbActive = false → s.lcd.initialised = true →
    (row.toNat < 4 → text.length ≤ s.cfg.maxScrollLen → text.length ≤ 16 →
      exec (.lcdStartScroll row dir text) s = .next (State.answered 0 { s with
        trace := s.trace ++ byteEvents s.mode false 0x01#8 ++ [.wait .long]
          ++ byteEvents s.mode false (ddramByte ((16 - text.length) / 2) row.toNat)
          ++ text.flatMap (byteEvents s.mode true)
        pin := (text.getLast?.map fun b => s.pin.afterByte true b).getD
          (s.pin.afterByte false (ddramByte ((16 - text.length) / 2) row.toNat))
        lcd := { s.lcd with scrollMode := .static, scrollText := [], scrollPosition := 0,
                            scrollRow := BitVec.ofNat 2 row.toNat, scrollDirection := dir } }))
    ∧ (row.toNat < 4 → text.length ≤ s.cfg.maxScrollLen → 16 < text.length →
      exec (.lcdStartScroll row dir text) s = .next (State.answered 0 { s with
        lcd := { s.lcd with scrollMode := .scrolling, scrollText := text, scrollPosition := 0,
                            scrollRow := BitVec.ofNat 2 row.toNat, scrollDirection := dir } }))
    ∧ (row.toNat < 4 → s.cfg.maxScrollLen < text.length → exec (.lcdStartScroll row dir text) s =
      .next { s with refused := true, replies := s.replies ++ [.refused .mainFlow .badPayload] })
    ∧ (4 ≤ row.toNat → exec (.lcdStartScroll row dir text) s =
      .next { s with refused := true, replies := s.replies ++ [.refused .mainFlow .operandRange] })

/-- R232, R233: in SCROLLING an update sends the cursor byte of the scroll row and the 16 window bytes, and advances the
position; in IDLE and STATIC it does nothing. -/
def Obligations.UpdateScrollRendersWindow : Prop :=
  ∀ s : State, s.clk.cbActive = false → s.lcd.initialised = true →
    (s.lcd.scrollMode = .scrolling → 0 < s.lcd.scrollText.length →
      exec .lcdUpdateScroll s = .next (State.answered 0 { s with
        trace := s.trace ++ byteEvents s.mode false (ddramByte 0 s.lcd.scrollRow.toNat)
          ++ (List.range 16).flatMap fun i => byteEvents s.mode true
              (s.lcd.scrollText.getD ((s.lcd.scrollPosition + i) % s.lcd.scrollText.length) 0)
        pin := s.pin.afterByte true
          (s.lcd.scrollText.getD ((s.lcd.scrollPosition + 15) % s.lcd.scrollText.length) 0)
        lcd := { s.lcd with
          scrollPosition :=
            if s.lcd.scrollDirection = .right then
              (if s.lcd.scrollPosition = 0 then s.lcd.scrollText.length - 1 else s.lcd.scrollPosition - 1)
            else (s.lcd.scrollPosition + 1) % s.lcd.scrollText.length } }))
    ∧ (s.lcd.scrollMode ≠ .scrolling → exec .lcdUpdateScroll s = .next (State.answered 0 s))

/-- R234: k updates in one direction move the position by k modulo the length, so it is back at its start exactly after
the multiples of the length. -/
def Obligations.ScrollPeriodIsTextLength : Prop :=
  ∀ (s : State) (k : Nat), s.clk.cbActive = false → s.lcd.initialised = true → s.lcd.scrollMode = .scrolling →
    s.lcd.scrollPosition < s.lcd.scrollText.length →
    ∃ t, execTimes .lcdUpdateScroll k s = .next t
      ∧ t.lcd = { s.lcd with scrollPosition := t.lcd.scrollPosition }
      ∧ (t.lcd.scrollPosition : Int) =
          (if s.lcd.scrollDirection = .right then (s.lcd.scrollPosition : Int) - k else s.lcd.scrollPosition + k)
            % s.lcd.scrollText.length
      ∧ (t.lcd.scrollPosition = s.lcd.scrollPosition ↔ s.lcd.scrollText.length ∣ k)

/-- R235 to R238, R80: stop forces Idle with no bus activity and keeps row and direction, setScrollDirection writes the
direction, and the two reads change nothing and run before LCD_INIT too. -/
def Obligations.ScrollStateCommandResults : Prop :=
  ∀ s : State, s.clk.cbActive = false →
    (s.lcd.initialised = true →
      exec .lcdStopScroll s = .next (State.answered 0
        { s with lcd := { s.lcd with scrollMode := .idle, scrollText := [], scrollPosition := 0 } })
      ∧ ∀ dir, exec (.lcdSetScrollDirection dir) s =
          .next (State.answered 0 { s with lcd := { s.lcd with scrollDirection := dir } }))
    ∧ exec .lcdIsScrolling s = .next (State.answered (if s.lcd.scrollMode = .scrolling then 1 else 0) s)
    ∧ exec .lcdGetScrollPosition s = .next (State.answered (BitVec.ofNat 32 s.lcd.scrollPosition) s)

/-- R241, R261: a slot below 8 gets its CGRAM address, its 8 bytes and the return to DDRAM address 0, and the result 1;
a slot of 8 or more is the result 0 and nothing else. -/
def Obligations.CreateCharResult : Prop :=
  ∀ (s : State) (slot : Byte) (bitmap : List Byte), s.clk.cbActive = false → s.lcd.initialised = true →
    bitmap.length = 8 →
    (slot.toNat < 8 → exec (.lcdCreateChar slot bitmap) s = .next (State.answered 1 { s with
      trace := s.trace ++ byteEvents s.mode false (BitVec.ofNat 8 (0x40 + slot.toNat * 8))
        ++ bitmap.flatMap (byteEvents s.mode true) ++ byteEvents s.mode false 0x80#8
      pin := s.pin.afterByte false 0x80#8
      lcd := { s.lcd with glyphCount := max s.lcd.glyphCount (slot.toNat + 1) } }))
    ∧ (8 ≤ slot.toNat → exec (.lcdCreateChar slot bitmap) s = .next (State.answered 0 s))

/-- R242, R261: slots 0 to count-1 are programmed in order, each with the return to DDRAM address 0, and the result is 1;
a count above 8 is the result 0 and nothing else, whatever the payload. -/
def Obligations.CreateCharsResult : Prop :=
  ∀ (s : State) (count : Byte) (bitmaps : List Byte), s.clk.cbActive = false → s.lcd.initialised = true →
    (count.toNat ≤ 8 → bitmaps.length = 8 * count.toNat →
      exec (.lcdCreateChars count bitmaps) s = .next (State.answered 1 { s with
        trace := s.trace ++ (List.range count.toNat).flatMap fun k =>
          byteEvents s.mode false (BitVec.ofNat 8 (0x40 + k * 8))
            ++ ((bitmaps.drop (8 * k)).take 8).flatMap (byteEvents s.mode true) ++ byteEvents s.mode false 0x80#8
        pin := if count = 0 then s.pin else s.pin.afterByte false 0x80#8
        lcd := { s.lcd with glyphCount := max s.lcd.glyphCount count.toNat } }))
    ∧ (8 < count.toNat → exec (.lcdCreateChars count bitmaps) s = .next (State.answered 0 s))

/-- R243, R261: a slot below 8 is sent as a data byte; another is silently nothing; the result is 0 in both cases. -/
def Obligations.WriteCustomCharResult : Prop :=
  ∀ (s : State) (slot : Byte), s.clk.cbActive = false → s.lcd.initialised = true →
    (slot.toNat < 8 → exec (.lcdWriteCustomChar slot) s = .next (State.answered 0 { s with
      trace := s.trace ++ byteEvents s.mode true slot, pin := s.pin.afterByte true slot }))
    ∧ (8 ≤ slot.toNat → exec (.lcdWriteCustomChar slot) s = .next (State.answered 0 s))

/-- R100 to R107, R110: a bus encoding is put on the bus as the transfer of R100 of the byte its rule prints. -/
def Obligations.BusByteTransfers : Prop :=
  ∀ (s : State) (x y z : Bool) (q : BitVec 2) (a : BitVec 6) (d : BitVec 7) (b : Byte),
    ∀ p ∈ [(Instr.busClearDisplay, false, 0x01), (.busReturnHome x, false, 0x02 + x.toNat),
           (.busEntryModeSet x y, false, 0x04 + 2 * x.toNat + y.toNat),
           (.busDisplayControl x y z, false, 0x08 + 4 * x.toNat + 2 * y.toNat + z.toNat),
           (.busFunctionSet x y z q, false, 0x20 + 16 * x.toNat + 8 * y.toNat + 4 * z.toNat + q.toNat),
           (.busSetCgramAddr a, false, 0x40 + a.toNat), (.busSetDdramAddr d, false, 0x80 + d.toNat),
           (.busDataWrite b, true, b.toNat)],
      exec p.1 s = .next { s with
        trace := s.trace ++ byteEvents s.mode p.2.1 (BitVec.ofNat 8 p.2.2)
        pin := s.pin.afterByte p.2.1 (BitVec.ofNat 8 p.2.2) }

/-- R100, R108, R109: a lone nibble is one data-line group and one pulse, with RS at 0 (log 14 for a bus whose RS is not
0 before it). -/
def Obligations.BusNibbleTransfers : Prop :=
  ∀ s : State, ∀ p ∈ [(Instr.busWakeNibble, 0x3#4), (.bus4BitNibble, 0x2#4)],
    exec p.1 s = .next { s with
      trace := s.trace ++ (if s.pin.rs = .low then [] else [.out .rs false]) ++ nibbleEvents s.mode p.2
      pin := { s.pin.afterNibble p.2 with rs := .low } }

/-! Timing of the bus and the external controller (R296, R244, R233; log 17, log 18). -/

/-- R296: every host command but a raw clear or home leaves a quiet bus quiet. -/
def Obligations.CommandsKeepBusWellTimed : Prop :=
  ∀ (i : Instr) (s t : State), isHostCommand i = true → isRawLong i = false → s.cfg.valid = true →
    lcdQuiet s.cfg s.trace = true → exec i s = .next t → lcdQuiet t.cfg t.trace = true

/-- R296: after a raw clear or home the next CharDisplay command that emits a byte breaks the predicate, where T_EXEC_US is
below the long recovery. -/
def Obligations.RawClearBreaksWellTimed : Prop :=
  ∀ (s t u : State) (i j : Instr) (op : Nat), s.clk.cbActive = false → s.lcd.initialised = true →
    s.cfg.tExecUs < 1520 → lcdQuiet s.cfg s.trace = true → isRawLong i = true → exec i s = .next t →
    commandOp j = some op → 0x40 ≤ op → exec j t = .next u → u.trace ≠ t.trace →
    lcdTraceWellTimed u.cfg u.trace = false

/-- R195, R199, R73: LCD_INIT leaves the controller incrementing, its address at DDRAM 0 and every DDRAM byte a space
(the controller's reactions are the spec's general-knowledge passages: log 17). -/
def Obligations.InitLeavesControllerCleared : Prop :=
  ∀ s t : State, s.clk.cbActive = false → s.lcd.initialised = false → lcdQuiet s.cfg s.trace = true →
    exec .lcdInit s = .next t → lcdController t.cfg t.trace = ⟨some (.ddram 0), true, true, [], [], 5⟩

/-- R244, R241, R243: the slot-0 bitmap is in CGRAM and glyph code 0 at DDRAM address 0 after createChar 0 and
writeCustomChar 0, or at the cursor set between them (log 17). -/
def Obligations.GlyphRoundTrip : Prop :=
  ∀ (s t : State) (bm : List Byte), s.clk.cbActive = false → s.lcd.initialised = true →
    lcdQuiet s.cfg s.trace = true → (lcdController s.cfg s.trace).increments = true → bm.length = 8 →
    exec (.lcdCreateChar 0 bm) s = .next t →
    (∀ u, exec (.lcdWriteCustomChar 0) t = .next u →
      (lcdController u.cfg u.trace).ddramAt 0 = some 0x00#8
      ∧ ∀ i, i < 8 → (lcdController u.cfg u.trace).cgramAt i = bm[i]?)
    ∧ (∀ (col row : Byte) (v u : State), col.toNat < 16 → row.toNat < 4 → exec (.lcdSetCursor col row) t = .next v →
      exec (.lcdWriteCustomChar 0) v = .next u →
      (lcdController u.cfg u.trace).ddramAt (col.toNat + rowOffsetNat row.toNat) = some 0x00#8)

/-- R233: the window stands at DDRAM addresses ROW_OFFSET[scrollRow] + i (log 17). -/
def Obligations.WindowStandsInScrollRow : Prop :=
  ∀ s t : State, s.clk.cbActive = false → s.lcd.initialised = true → s.lcd.scrollMode = .scrolling →
    0 < s.lcd.scrollText.length → lcdQuiet s.cfg s.trace = true → (lcdController s.cfg s.trace).increments = true →
    exec .lcdUpdateScroll s = .next t →
    ∀ i, i < 16 → (lcdController t.cfg t.trace).ddramAt (rowOffsetNat s.lcd.scrollRow.toNat + i)
      = s.lcd.scrollText[(s.lcd.scrollPosition + i) % s.lcd.scrollText.length]?

/-! Whole-machine rules. -/

/-- R89, R209, R94: the commands of one sub-block leave the state and the pins of the others alone. -/
def Obligations.SubBlocksAreIndependent : Prop :=
  ∀ (i : Instr) (op : Nat) (s t : State), commandOp i = some op → exec i s = .next t →
    t.env = s.env ∧ t.cfg = s.cfg ∧ t.sched = s.sched ∧ t.cmd = s.cmd ∧ t.cbCmd = s.cbCmd ∧ t.issued = s.issued
      ∧ (op / 0x20 = 0 → t.kp = s.kp ∧ t.lcd = s.lcd ∧ t.pin = s.pin ∧ t.trace = s.trace ∧ t.timeSamples = s.timeSamples)
      ∧ (op / 0x20 = 1 → t.clk = s.clk ∧ t.lcd = s.lcd ∧ t.pin = { s.pin with row := t.pin.row })
      ∧ (2 ≤ op / 0x20 → t.clk = s.clk ∧ t.kp = s.kp ∧ t.pin.row = s.pin.row ∧ t.timeSamples = s.timeSamples)

/-- R32 to R37, R42 to R47, R51 to R55, R239: each field of the Clock, the KeyScanner and the display state is written only
by the instructions its rule names. -/
def Obligations.FieldsHaveTheirWriters : Prop :=
  ∀ (i : Instr) (s t : State), exec i s = .next t →
    (i ≠ .evTick → i ≠ .clkReset →
      t.clk.secondsElapsed = s.clk.secondsElapsed ∧ t.clk.halfSecondPhase = s.clk.halfSecondPhase)
    ∧ (i ≠ .clkStart → i ≠ .clkStop → t.clk.running = s.clk.running)
    ∧ (i ≠ .clkConfigure → t.clk.configured = s.clk.configured)
    ∧ ((∀ h, i ≠ .clkSetTickCallback h) → t.clk.callback = s.clk.callback)
    ∧ (i ≠ .evTick → i ≠ .evCbDone → t.clk.cbActive = s.clk.cbActive)
    ∧ (i ≠ .kpdGetKey → t.kp.currentRow = s.kp.currentRow ∧ t.kp.gkPhase = s.kp.gkPhase ∧ t.kp.gkTime = s.kp.gkTime
        ∧ t.kp.lastDebounceTimestamp = s.kp.lastDebounceTimestamp ∧ t.timeSamples = s.timeSamples)
    ∧ (i ≠ .kpdGetKey → i ≠ .evPinchange → t.kp.keyDetectedFlag = s.kp.keyDetectedFlag)
    ∧ (i ≠ .kpdInit → t.kp.initialised = s.kp.initialised)
    ∧ (i ≠ .kpdInit → i ≠ .kpdGetKey → i ≠ .evPinchange → t.kp.pcPending = s.kp.pcPending)
    ∧ t.lcd.simMode = s.lcd.simMode
    ∧ (i ≠ .lcdInit → t.lcd.initialised = s.lcd.initialised)
    ∧ (i ∉ [.lcdInit, .lcdDisplayOn, .lcdDisplayOff, .lcdCursorOn, .lcdCursorOff, .lcdBlinkOn, .lcdBlinkOff] →
        t.lcd.dispCtl = s.lcd.dispCtl)
    ∧ ((∀ r d x, i ≠ .lcdStartScroll r d x) → i ≠ .lcdStopScroll →
        t.lcd.scrollMode = s.lcd.scrollMode ∧ t.lcd.scrollText = s.lcd.scrollText)
    ∧ ((∀ r d x, i ≠ .lcdStartScroll r d x) → t.lcd.scrollRow = s.lcd.scrollRow)
    ∧ ((∀ r d x, i ≠ .lcdStartScroll r d x) → i ≠ .lcdStopScroll → i ≠ .lcdUpdateScroll →
        t.lcd.scrollPosition = s.lcd.scrollPosition)
    ∧ ((∀ r d x, i ≠ .lcdStartScroll r d x) → (∀ d, i ≠ .lcdSetScrollDirection d) →
        t.lcd.scrollDirection = s.lcd.scrollDirection)
    ∧ ((∀ n x, i ≠ .lcdCreateChar n x) → (∀ n x, i ≠ .lcdCreateChars n x) → t.lcd.glyphCount = s.lcd.glyphCount)

/-- R290 to R292: what reset leaves, for the fields the spec gives a reset value (dispCtl, whose value is the model's
choice, log 8, is not among them). -/
def Obligations.ResetLeavesSpecValues : Prop :=
  State.reset.clk = ⟨0, 0, false, false, 0, false⟩
    ∧ State.reset.kp = ⟨0, false, 0, false, false, .idle, 0⟩
    ∧ State.reset.pin = ⟨.undriven, .undriven, .undriven, .undriven, .undriven, .undriven,
        ⟨.undriven, .undriven, .undriven, .undriven⟩⟩
    ∧ State.reset.lcd.initialised = false ∧ State.reset.lcd.simMode = State.reset.cfg.simMode
    ∧ State.reset.lcd.scrollMode = .idle ∧ State.reset.lcd.scrollText = [] ∧ State.reset.lcd.scrollPosition = 0
    ∧ State.reset.lcd.scrollRow = 0 ∧ State.reset.lcd.scrollDirection = .left ∧ State.reset.lcd.glyphCount = 0
    ∧ State.reset.trace = [] ∧ State.reset.timeSamples = [] ∧ State.reset.faults = ⟨false, false⟩ ∧ State.reset.refused = false

/-- R264, R293: an initial state is built exactly from a valid configuration, and it meets the invariant. -/
def Obligations.ConstructionChecksConfig : Prop :=
  ∀ (c : Config) (keys : Grid Bool) (ms : Nat),
    (c.valid = true → ∃ s, State.construct c keys ms = .next s ∧ s.Inv ∧ s.cfg = c ∧ s.env = ⟨keys, ms⟩)
    ∧ (c.valid = false → State.construct c keys ms = .refused .badConfig)

/-- The invariant holds at reset, whatever the open parameters are (R13, R291; log 5). -/
def Obligations.ResetMeetsInvariant : Prop := State.reset.Inv

/-- Every step keeps the invariant: R16, R38, R41, R45 to R49, R51, R52, R55, R56, R263. -/
def Obligations.StepKeepsInvariant : Prop :=
  ∀ s t : State, s.Inv → step s = .next t → t.Inv
end

