-- ==== Sys2Proof/Laws/State.lean ====
section
/-! SUPPORT. The fields of a state after each named update: one lemma per field per update, all true by rfl, so that no
later proof unfolds a record update. -/

namespace Sys2Proof.Machine

variable (s : State)

/-! emit. -/

@[simp] theorem emit_cfg (ev : Event) : (s.emit ev).cfg = s.cfg := rfl
@[simp] theorem emit_clk (ev : Event) : (s.emit ev).clk = s.clk := rfl
@[simp] theorem emit_kp (ev : Event) : (s.emit ev).kp = s.kp := rfl
@[simp] theorem emit_lcd (ev : Event) : (s.emit ev).lcd = s.lcd := rfl
@[simp] theorem emit_pin (ev : Event) : (s.emit ev).pin = s.pin := rfl
@[simp] theorem emit_trace (ev : Event) : (s.emit ev).trace = s.trace ++ [ev] := rfl
@[simp] theorem emit_timeSamples (ev : Event) : (s.emit ev).timeSamples = s.timeSamples := rfl
@[simp] theorem emit_faults (ev : Event) : (s.emit ev).faults = s.faults := rfl
@[simp] theorem emit_refused (ev : Event) : (s.emit ev).refused = s.refused := rfl
@[simp] theorem emit_env (ev : Event) : (s.emit ev).env = s.env := rfl
@[simp] theorem emit_issued (ev : Event) : (s.emit ev).issued = s.issued := rfl
@[simp] theorem emit_replies (ev : Event) : (s.emit ev).replies = s.replies := rfl
@[simp] theorem emit_cmd (ev : Event) : (s.emit ev).cmd = s.cmd := rfl
@[simp] theorem emit_cbCmd (ev : Event) : (s.emit ev).cbCmd = s.cbCmd := rfl
@[simp] theorem emit_sched (ev : Event) : (s.emit ev).sched = s.sched := rfl

/-! wait. -/

@[simp] theorem wait_cfg (t : Delay) : (s.wait t).cfg = s.cfg := rfl
@[simp] theorem wait_clk (t : Delay) : (s.wait t).clk = s.clk := rfl
@[simp] theorem wait_kp (t : Delay) : (s.wait t).kp = s.kp := rfl
@[simp] theorem wait_lcd (t : Delay) : (s.wait t).lcd = s.lcd := rfl
@[simp] theorem wait_pin (t : Delay) : (s.wait t).pin = s.pin := rfl
@[simp] theorem wait_trace (t : Delay) : (s.wait t).trace = s.trace ++ [.wait t] := rfl
@[simp] theorem wait_timeSamples (t : Delay) : (s.wait t).timeSamples = s.timeSamples := rfl
@[simp] theorem wait_faults (t : Delay) : (s.wait t).faults = s.faults := rfl
@[simp] theorem wait_refused (t : Delay) : (s.wait t).refused = s.refused := rfl
@[simp] theorem wait_env (t : Delay) : (s.wait t).env = s.env := rfl
@[simp] theorem wait_issued (t : Delay) : (s.wait t).issued = s.issued := rfl
@[simp] theorem wait_replies (t : Delay) : (s.wait t).replies = s.replies := rfl
@[simp] theorem wait_cmd (t : Delay) : (s.wait t).cmd = s.cmd := rfl
@[simp] theorem wait_cbCmd (t : Delay) : (s.wait t).cbCmd = s.cbCmd := rfl
@[simp] theorem wait_sched (t : Delay) : (s.wait t).sched = s.sched := rfl

/-! sampleColumns. -/

@[simp] theorem sampleColumns_cfg : (s.sampleColumns).cfg = s.cfg := rfl
@[simp] theorem sampleColumns_clk : (s.sampleColumns).clk = s.clk := rfl
@[simp] theorem sampleColumns_kp : (s.sampleColumns).kp = s.kp := rfl
@[simp] theorem sampleColumns_lcd : (s.sampleColumns).lcd = s.lcd := rfl
@[simp] theorem sampleColumns_pin : (s.sampleColumns).pin = s.pin := rfl
@[simp] theorem sampleColumns_trace : (s.sampleColumns).trace = s.trace ++ [.inCols s.colLevel] := rfl
@[simp] theorem sampleColumns_timeSamples : (s.sampleColumns).timeSamples = s.timeSamples := rfl
@[simp] theorem sampleColumns_faults : (s.sampleColumns).faults = s.faults := rfl
@[simp] theorem sampleColumns_refused : (s.sampleColumns).refused = s.refused := rfl
@[simp] theorem sampleColumns_env : (s.sampleColumns).env = s.env := rfl
@[simp] theorem sampleColumns_issued : (s.sampleColumns).issued = s.issued := rfl
@[simp] theorem sampleColumns_replies : (s.sampleColumns).replies = s.replies := rfl
@[simp] theorem sampleColumns_cmd : (s.sampleColumns).cmd = s.cmd := rfl
@[simp] theorem sampleColumns_cbCmd : (s.sampleColumns).cbCmd = s.cbCmd := rfl
@[simp] theorem sampleColumns_sched : (s.sampleColumns).sched = s.sched := rfl

/-! sampleTime. -/

@[simp] theorem sampleTime_cfg : (s.sampleTime).cfg = s.cfg := rfl
@[simp] theorem sampleTime_clk : (s.sampleTime).clk = s.clk := rfl
@[simp] theorem sampleTime_kp : (s.sampleTime).kp = s.kp := rfl
@[simp] theorem sampleTime_lcd : (s.sampleTime).lcd = s.lcd := rfl
@[simp] theorem sampleTime_pin : (s.sampleTime).pin = s.pin := rfl
@[simp] theorem sampleTime_trace : (s.sampleTime).trace = s.trace := rfl
@[simp] theorem sampleTime_timeSamples : (s.sampleTime).timeSamples = s.timeSamples ++ [(s.trace.length, s.now)] := rfl
@[simp] theorem sampleTime_faults : (s.sampleTime).faults = s.faults := rfl
@[simp] theorem sampleTime_refused : (s.sampleTime).refused = s.refused := rfl
@[simp] theorem sampleTime_env : (s.sampleTime).env = s.env := rfl
@[simp] theorem sampleTime_issued : (s.sampleTime).issued = s.issued := rfl
@[simp] theorem sampleTime_replies : (s.sampleTime).replies = s.replies := rfl
@[simp] theorem sampleTime_cmd : (s.sampleTime).cmd = s.cmd := rfl
@[simp] theorem sampleTime_cbCmd : (s.sampleTime).cbCmd = s.cbCmd := rfl
@[simp] theorem sampleTime_sched : (s.sampleTime).sched = s.sched := rfl

/-! reply. -/

@[simp] theorem reply_cfg (v : Word) : (s.reply v).cfg = s.cfg := rfl
@[simp] theorem reply_clk (v : Word) : (s.reply v).clk = s.clk := rfl
@[simp] theorem reply_kp (v : Word) : (s.reply v).kp = s.kp := rfl
@[simp] theorem reply_lcd (v : Word) : (s.reply v).lcd = s.lcd := rfl
@[simp] theorem reply_pin (v : Word) : (s.reply v).pin = s.pin := rfl
@[simp] theorem reply_trace (v : Word) : (s.reply v).trace = s.trace := rfl
@[simp] theorem reply_timeSamples (v : Word) : (s.reply v).timeSamples = s.timeSamples := rfl
@[simp] theorem reply_faults (v : Word) : (s.reply v).faults = s.faults := rfl
@[simp] theorem reply_refused (v : Word) : (s.reply v).refused = s.refused := rfl
@[simp] theorem reply_env (v : Word) : (s.reply v).env = s.env := rfl
@[simp] theorem reply_issued (v : Word) : (s.reply v).issued = s.issued := rfl
@[simp] theorem reply_replies (v : Word) : (s.reply v).replies = s.replies ++ [.result s.context v] := rfl
@[simp] theorem reply_cmd (v : Word) : (s.reply v).cmd = s.cmd := rfl
@[simp] theorem reply_cbCmd (v : Word) : (s.reply v).cbCmd = s.cbCmd := rfl
@[simp] theorem reply_sched (v : Word) : (s.reply v).sched = s.sched := rfl

/-! refuse. -/

@[simp] theorem refuse_cfg (r : Reason) : (s.refuse r).cfg = s.cfg := rfl
@[simp] theorem refuse_clk (r : Reason) : (s.refuse r).clk = s.clk := rfl
@[simp] theorem refuse_kp (r : Reason) : (s.refuse r).kp = s.kp := rfl
@[simp] theorem refuse_lcd (r : Reason) : (s.refuse r).lcd = s.lcd := rfl
@[simp] theorem refuse_pin (r : Reason) : (s.refuse r).pin = s.pin := rfl
@[simp] theorem refuse_trace (r : Reason) : (s.refuse r).trace = s.trace := rfl
@[simp] theorem refuse_timeSamples (r : Reason) : (s.refuse r).timeSamples = s.timeSamples := rfl
@[simp] theorem refuse_faults (r : Reason) : (s.refuse r).faults = s.faults := rfl
@[simp] theorem refuse_refused (r : Reason) : (s.refuse r).refused = true := rfl
@[simp] theorem refuse_env (r : Reason) : (s.refuse r).env = s.env := rfl
@[simp] theorem refuse_issued (r : Reason) : (s.refuse r).issued = s.issued := rfl
@[simp] theorem refuse_replies (r : Reason) : (s.refuse r).replies = s.replies ++ [.refused s.context r] := rfl
@[simp] theorem refuse_cmd (r : Reason) : (s.refuse r).cmd = s.cmd := rfl
@[simp] theorem refuse_cbCmd (r : Reason) : (s.refuse r).cbCmd = s.cbCmd := rfl
@[simp] theorem refuse_sched (r : Reason) : (s.refuse r).sched = s.sched := rfl

/-! raise. -/

@[simp] theorem raise_cfg (k : FaultKind) : (s.raise k).cfg = s.cfg := rfl
@[simp] theorem raise_clk (k : FaultKind) : (s.raise k).clk = s.clk := rfl
@[simp] theorem raise_kp (k : FaultKind) : (s.raise k).kp = s.kp := rfl
@[simp] theorem raise_lcd (k : FaultKind) : (s.raise k).lcd = s.lcd := rfl
@[simp] theorem raise_pin (k : FaultKind) : (s.raise k).pin = s.pin := rfl
@[simp] theorem raise_trace (k : FaultKind) : (s.raise k).trace = s.trace := rfl
@[simp] theorem raise_timeSamples (k : FaultKind) : (s.raise k).timeSamples = s.timeSamples := rfl
@[simp] theorem raise_faults (k : FaultKind) : (s.raise k).faults = s.faults.insert k := rfl
@[simp] theorem raise_refused (k : FaultKind) : (s.raise k).refused = s.refused := rfl
@[simp] theorem raise_env (k : FaultKind) : (s.raise k).env = s.env := rfl
@[simp] theorem raise_issued (k : FaultKind) : (s.raise k).issued = s.issued := rfl
@[simp] theorem raise_replies (k : FaultKind) : (s.raise k).replies = s.replies := rfl
@[simp] theorem raise_cmd (k : FaultKind) : (s.raise k).cmd = s.cmd := rfl
@[simp] theorem raise_cbCmd (k : FaultKind) : (s.raise k).cbCmd = s.cbCmd := rfl
@[simp] theorem raise_sched (k : FaultKind) : (s.raise k).sched = s.sched := rfl

/-! latchChange. -/

@[simp] theorem latchChange_cfg (before : BitVec 4) : (s.latchChange before).cfg = s.cfg := rfl
@[simp] theorem latchChange_clk (before : BitVec 4) : (s.latchChange before).clk = s.clk := rfl
@[simp] theorem latchChange_kp (before : BitVec 4) : (s.latchChange before).kp = { s.kp with pcPending := s.kp.pcPending || (s.kp.initialised && s.colLevel != before) } := rfl
@[simp] theorem latchChange_lcd (before : BitVec 4) : (s.latchChange before).lcd = s.lcd := rfl
@[simp] theorem latchChange_pin (before : BitVec 4) : (s.latchChange before).pin = s.pin := rfl
@[simp] theorem latchChange_trace (before : BitVec 4) : (s.latchChange before).trace = s.trace := rfl
@[simp] theorem latchChange_timeSamples (before : BitVec 4) : (s.latchChange before).timeSamples = s.timeSamples := rfl
@[simp] theorem latchChange_faults (before : BitVec 4) : (s.latchChange before).faults = s.faults := rfl
@[simp] theorem latchChange_refused (before : BitVec 4) : (s.latchChange before).refused = s.refused := rfl
@[simp] theorem latchChange_env (before : BitVec 4) : (s.latchChange before).env = s.env := rfl
@[simp] theorem latchChange_issued (before : BitVec 4) : (s.latchChange before).issued = s.issued := rfl
@[simp] theorem latchChange_replies (before : BitVec 4) : (s.latchChange before).replies = s.replies := rfl
@[simp] theorem latchChange_cmd (before : BitVec 4) : (s.latchChange before).cmd = s.cmd := rfl
@[simp] theorem latchChange_cbCmd (before : BitVec 4) : (s.latchChange before).cbCmd = s.cbCmd := rfl
@[simp] theorem latchChange_sched (before : BitVec 4) : (s.latchChange before).sched = s.sched := rfl

/-! enterCallback. -/

@[simp] theorem enterCallback_cfg : (s.enterCallback).cfg = s.cfg := rfl
@[simp] theorem enterCallback_clk : (s.enterCallback).clk = { s.clk with cbActive := true } := rfl
@[simp] theorem enterCallback_kp : (s.enterCallback).kp = s.kp := rfl
@[simp] theorem enterCallback_lcd : (s.enterCallback).lcd = s.lcd := rfl
@[simp] theorem enterCallback_pin : (s.enterCallback).pin = s.pin := rfl
@[simp] theorem enterCallback_trace : (s.enterCallback).trace = s.trace ++ [.callback s.clk.callback] := rfl
@[simp] theorem enterCallback_timeSamples : (s.enterCallback).timeSamples = s.timeSamples := rfl
@[simp] theorem enterCallback_faults : (s.enterCallback).faults = s.faults := rfl
@[simp] theorem enterCallback_refused : (s.enterCallback).refused = s.refused := rfl
@[simp] theorem enterCallback_env : (s.enterCallback).env = s.env := rfl
@[simp] theorem enterCallback_issued : (s.enterCallback).issued = s.issued := rfl
@[simp] theorem enterCallback_replies : (s.enterCallback).replies = s.replies := rfl
@[simp] theorem enterCallback_cmd : (s.enterCallback).cmd = s.cmd := rfl
@[simp] theorem enterCallback_cbCmd : (s.enterCallback).cbCmd = s.cbCmd := rfl
@[simp] theorem enterCallback_sched : (s.enterCallback).sched = s.sched := rfl

/-! leaveCallback. -/

@[simp] theorem leaveCallback_cfg : (s.leaveCallback).cfg = s.cfg := rfl
@[simp] theorem leaveCallback_clk : (s.leaveCallback).clk = { s.clk with cbActive := false } := rfl
@[simp] theorem leaveCallback_kp : (s.leaveCallback).kp = s.kp := rfl
@[simp] theorem leaveCallback_lcd : (s.leaveCallback).lcd = s.lcd := rfl
@[simp] theorem leaveCallback_pin : (s.leaveCallback).pin = s.pin := rfl
@[simp] theorem leaveCallback_trace : (s.leaveCallback).trace = s.trace := rfl
@[simp] theorem leaveCallback_timeSamples : (s.leaveCallback).timeSamples = s.timeSamples := rfl
@[simp] theorem leaveCallback_faults : (s.leaveCallback).faults = s.faults := rfl
@[simp] theorem leaveCallback_refused : (s.leaveCallback).refused = s.refused := rfl
@[simp] theorem leaveCallback_env : (s.leaveCallback).env = s.env := rfl
@[simp] theorem leaveCallback_issued : (s.leaveCallback).issued = s.issued := rfl
@[simp] theorem leaveCallback_replies : (s.leaveCallback).replies = s.replies := rfl
@[simp] theorem leaveCallback_cmd : (s.leaveCallback).cmd = s.cmd := rfl
@[simp] theorem leaveCallback_cbCmd : (s.leaveCallback).cbCmd = s.cbCmd := rfl
@[simp] theorem leaveCallback_sched : (s.leaveCallback).sched = s.sched := rfl

/-! sent. -/

@[simp] theorem sent_cfg (l : List (Bool × Byte)) : (s.sent l).cfg = s.cfg := rfl
@[simp] theorem sent_clk (l : List (Bool × Byte)) : (s.sent l).clk = s.clk := rfl
@[simp] theorem sent_kp (l : List (Bool × Byte)) : (s.sent l).kp = s.kp := rfl
@[simp] theorem sent_lcd (l : List (Bool × Byte)) : (s.sent l).lcd = s.lcd := rfl
@[simp] theorem sent_pin (l : List (Bool × Byte)) : (s.sent l).pin = s.pin.afterBytes l := rfl
@[simp] theorem sent_trace (l : List (Bool × Byte)) : (s.sent l).trace = s.trace ++ bytesEvents s.mode l := rfl
@[simp] theorem sent_faults (l : List (Bool × Byte)) : (s.sent l).faults = s.faults := rfl
@[simp] theorem sent_refused (l : List (Bool × Byte)) : (s.sent l).refused = s.refused := rfl
@[simp] theorem sent_env (l : List (Bool × Byte)) : (s.sent l).env = s.env := rfl
@[simp] theorem sent_issued (l : List (Bool × Byte)) : (s.sent l).issued = s.issued := rfl
@[simp] theorem sent_replies (l : List (Bool × Byte)) : (s.sent l).replies = s.replies := rfl
@[simp] theorem sent_cmd (l : List (Bool × Byte)) : (s.sent l).cmd = s.cmd := rfl
@[simp] theorem sent_cbCmd (l : List (Bool × Byte)) : (s.sent l).cbCmd = s.cbCmd := rfl
@[simp] theorem sent_sched (l : List (Bool × Byte)) : (s.sent l).sched = s.sched := rfl

end Sys2Proof.Machine
end

