-- ==== Sys2Proof/Laws/Ops.lean ====
section
/-! SUPPORT. What each shared operation does, said once: the checks of R269 and R281, the transfers of R190 to R194 in
closed form, the row drive of R165, and the canonical lists of Machine/BusView.lean. -/

namespace Sys2Proof.Machine

/-! Four like things. -/

@[simp] theorem four_get_set_same {α : Type} (f : Four α) (i : BitVec 2) (x : α) :
    Four.get (Four.set f i x) i = x := by
  unfold Four.get Four.set; repeat' split
  all_goals rfl

/-- A row or column index is 0, 1, 2 or 3. -/
theorem index_cases (i : BitVec 2) : i = 0 ∨ i = 1 ∨ i = 2 ∨ i = 3 := by revert i; decide

theorem four_get_set_other {α : Type} (f : Four α) (i j : BitVec 2) (x : α) (h : j ≠ i) :
    Four.get (Four.set f i x) j = Four.get f j := by
  rcases index_cases i with rfl | rfl | rfl | rfl <;> rcases index_cases j with rfl | rfl | rfl | rfl <;>
    first | rfl | exact absurd rfl h

/-! The events of R16. -/

theorem nowsAt_append (l m : List (Nat × Word)) (k : Nat) : nowsAt (l ++ m) k = nowsAt l k ++ nowsAt m k := by
  simp [nowsAt]

theorem nowsAt_late {l : List (Nat × Word)} {k : Nat} (h : ∀ x ∈ l, x.1 ≤ k) : nowsAt l (k + 1) = [] := by
  simp only [nowsAt, List.map_eq_nil_iff, List.filter_eq_nil_iff, beq_iff_eq]
  intro x hx e
  have := h x hx
  omega

theorem withNows_emit {l : List (Nat × Word)} {k : Nat} {tr : List Event} (ev : Event)
    (h : ∀ x ∈ l, x.1 ≤ k + tr.length) : withNows l k (tr ++ [ev]) = withNows l k tr ++ [ev] := by
  induction tr generalizing k with
  | nil => simp [withNows, nowsAt_late (l := l) (k := k) (by simpa using h)]
  | cons e tr ih =>
    simp only [withNows, List.cons_append, List.append_assoc]
    rw [ih fun x hx => by have := h x hx; simp only [List.length_cons] at this; omega]

theorem withNows_sample (l : List (Nat × Word)) (k : Nat) (tr : List Event) (v : Word) :
    withNows (l ++ [(k + tr.length, v)]) k tr = withNows l k tr ++ [.now v] := by
  induction tr generalizing k with
  | nil => simp [withNows, nowsAt]
  | cons e tr ih =>
    have hk : nowsAt [(k + (e :: tr).length, v)] k = [] := by simp [nowsAt]
    have hl : k + (e :: tr).length = k + 1 + tr.length := by simp only [List.length_cons]; omega
    simp only [withNows, nowsAt_append, hk, List.append_nil, List.append_assoc, List.cons_append]
    rw [hl, ih]

theorem withNows_append {l : List (Nat × Word)} {k : Nat} {tr : List Event} (evs : List Event)
    (h : ∀ x ∈ l, x.1 ≤ k + tr.length) : withNows l k (tr ++ evs) = withNows l k tr ++ evs := by
  induction evs generalizing tr with
  | nil => simp
  | cons e evs ih =>
    have ha : tr ++ e :: evs = tr ++ [e] ++ evs := by simp
    rw [ha, ih fun x hx => by have := h x hx; simp only [List.length_append, List.length_cons]; omega, withNows_emit e h]
    simp

/-- An event of S.trace is appended to the list of R16. -/
theorem events_emit (ev : Event) {s : State} (h : ∀ x ∈ s.timeSamples, x.1 ≤ s.trace.length) :
    (s.emit ev).events = s.events ++ [ev] := withNows_emit ev (by simpa using h)

/-- A time sample is appended to the list of R16 as a Now event. -/
theorem events_sampleTime (s : State) : s.sampleTime.events = s.events ++ [.now s.now] := by
  have h := withNows_sample s.timeSamples 0 s.trace s.now
  rw [Nat.zero_add] at h
  exact h

/-! The checks. -/

theorem mainFlowOnly_main {body : State → State} {s : State} (h : s.clk.cbActive = false) :
    mainFlowOnly body s = .next (body s) := by simp [mainFlowOnly, h]

theorem mainFlowOnly_callback {body : State → State} {s : State} (h : s.clk.cbActive = true) :
    mainFlowOnly body s = .next (s.raise .callbackReentry) := by simp [mainFlowOnly, h]

/-- All that a main-flow command can do: it raises CallbackReentry in callback context, else its body runs. -/
theorem mainFlowOnly_cases {body : State → State} {s t : State} (h : mainFlowOnly body s = .next t) :
    (s.clk.cbActive = true ∧ t = s.raise .callbackReentry) ∨ (s.clk.cbActive = false ∧ t = body s) := by
  unfold mainFlowOnly at h
  split at h
  · exact .inl ⟨‹_›, by injection h with h; exact h.symm⟩
  · rename_i hc
    exact .inr ⟨by simpa using hc, by injection h with h; exact h.symm⟩

theorem lcdCommandStep_ready {body : State → State} {s : State} (hc : s.clk.cbActive = false)
    (hi : s.lcd.initialised = true) : lcdCommandStep body s = .next (body s) := by
  simp [lcdCommandStep, mainFlowOnly, hc, hi]

theorem lcdCommandStep_early {body : State → State} {s : State} (hc : s.clk.cbActive = false)
    (hi : s.lcd.initialised = false) : lcdCommandStep body s = .next (s.refuse .notInitialised) := by
  simp [lcdCommandStep, mainFlowOnly, hc, hi]

/-- All that a CharDisplay command can do. -/
theorem lcdCommandStep_cases {body : State → State} {s t : State} (h : lcdCommandStep body s = .next t) :
    (s.clk.cbActive = true ∧ t = s.raise .callbackReentry)
      ∨ (s.clk.cbActive = false ∧ s.lcd.initialised = false ∧ t = s.refuse .notInitialised)
      ∨ (s.clk.cbActive = false ∧ s.lcd.initialised = true ∧ t = body s) := by
  rcases mainFlowOnly_cases h with ⟨hc, ht⟩ | ⟨hc, ht⟩
  · exact .inl ⟨hc, ht⟩
  · cases hi : s.lcd.initialised
    · exact .inr (.inl ⟨hc, rfl, by simpa [hi] using ht⟩)
    · exact .inr (.inr ⟨hc, rfl, by simpa [hi] using ht⟩)

theorem onceOnly_first {body : State → State} {s : State} : onceOnly false body s = body s := rfl

theorem onceOnly_again {body : State → State} {s : State} : onceOnly true body s = s.refuse .reInit := rfl

/-! Transfers in closed form. -/

@[simp] theorem highNibble_bits (b : Byte) (i : Nat) (h : i < 4) :
    (highNibble b).getLsbD i = (b.extractLsb' 4 4).getLsbD i := by
  simp [highNibble, h, Nat.add_comm]

@[simp] theorem lowNibble_bits (b : Byte) (i : Nat) (h : i < 4) :
    (lowNibble b).getLsbD i = (b.extractLsb' 0 4).getLsbD i := by
  have : (0x0F#8).getLsbD i = true := by revert i; decide
  simp [lowNibble, h, this]

/-- sendNibble: ten events, the data lines and E (R191). -/
theorem nibble_eq (v : Byte) (w : BitVec 4) (s : State) (h : ∀ i, i < 4 → v.getLsbD i = w.getLsbD i) :
    nibble v s = { s with trace := s.trace ++ nibbleEvents s.mode w, pin := s.pin.afterNibble w } := by
  simp only [nibble, pulse, presentNibble, State.out, State.emit, State.wait, nibbleEvents, pulseEvents, Pins.drive,
    Pins.afterNibble, State.mode, h 0 (by decide), h 1 (by decide), h 2 (by decide), h 3 (by decide),
    List.append_assoc, List.cons_append, List.nil_append]
  rfl

/-- sendByte: 22 events, register select, the data lines of the low nibble, and E (R192). -/
theorem transfer_eq (rs : Bool) (b : Byte) (s : State) : transfer rs b s = s.sent [(rs, b)] := by
  unfold transfer
  rw [nibble_eq (highNibble b) (b.extractLsb' 4 4) _ (fun i hi => highNibble_bits b i hi),
    nibble_eq (lowNibble b) (b.extractLsb' 0 4) _ (fun i hi => lowNibble_bits b i hi)]
  simp [State.sent, State.out, State.emit, State.wait, State.mode, bytesEvents, byteEvents, Pins.afterBytes,
    Pins.afterByte, Pins.afterNibble, Pins.drive]

theorem sendCommand_eq (b : Byte) (s : State) : sendCommand b s = s.sent [cmdByte b] := transfer_eq false b s

theorem sendData_eq (b : Byte) (s : State) : sendData b s = s.sent [(true, b)] := transfer_eq true b s

@[simp] theorem sent_nil (s : State) : s.sent [] = s := by simp [State.sent, bytesEvents, Pins.afterBytes]

@[simp] theorem sent_mode (l : List (Bool × Byte)) (s : State) : (s.sent l).mode = s.mode := rfl

theorem afterByte_afterByte (f : Pins) (rs rs' : Bool) (b b' : Byte) :
    (f.afterByte rs b).afterByte rs' b' = f.afterByte rs' b' := rfl

theorem afterBytes_append (f : Pins) (l l' : List (Bool × Byte)) :
    (f.afterBytes l).afterBytes l' = f.afterBytes (l ++ l') := by
  unfold Pins.afterBytes
  rw [List.getLast?_append]
  cases h' : l'.getLast? with
  | none => simp
  | some x => cases l.getLast? <;> simp [afterByte_afterByte]

/-- Bytes sent in two parts are the bytes sent at once. -/
@[simp] theorem sent_sent (l l' : List (Bool × Byte)) (s : State) : (s.sent l).sent l' = s.sent (l ++ l') := by
  simp only [State.sent, State.mode, afterBytes_append, List.append_assoc]
  simp [bytesEvents]

/-- print: one data byte for each byte of the text (R198). -/
theorem sendText_eq (text : List Byte) (s : State) : sendText text s = s.sent (dataBytes text) := by
  induction text generalizing s with
  | nil => simp [sendText, dataBytes]
  | cons b text ih =>
    have h : sendText (b :: text) s = sendText text (sendData b s) := by simp only [sendText, List.foldl_cons]
    rw [h, ih, sendData_eq, sent_sent]
    simp [dataBytes]

/-- clear and home: the command byte, then the long wait (R199, R200). -/
theorem sendLong_eq (b : Byte) (s : State) : sendLong b s = (s.sent [cmdByte b]).wait .long := by
  rw [sendLong, sendCommand_eq]

/-! The row drive. -/

/-- Out to a row pin: the pin, the event, and the latch if a column level changes while armed (R46, R48). -/
theorem out_row_eq (i : BitVec 2) (b : Bool) (s : State) :
    ∃ p, s.out (.row i) b =
      { s with pin := { s.pin with row := Four.set s.pin.row i (.ofBit b) }, trace := s.trace ++ [.out (.row i) b],
               kp := { s.kp with pcPending := p } } ∧ (s.kp.initialised = false → p = s.kp.pcPending) := by
  refine ⟨_, rfl, ?_⟩
  intro h
  simp [State.emit, h]

/-- The row switch: what it leaves, with p the latch after it (R165). -/
theorem switchRow_eq (s : State) :
    ∃ p, switchRow s =
      { s with
        pin := { s.pin with row := Four.set (Four.set s.pin.row s.kp.currentRow .high) (s.kp.currentRow + 1) .low }
        trace := s.trace ++ [.out (.row s.kp.currentRow) true, .out (.row (s.kp.currentRow + 1)) false]
        kp := { s.kp with currentRow := s.kp.currentRow + 1, pcPending := p } } := by
  obtain ⟨p, hp, -⟩ := out_row_eq s.kp.currentRow true s
  unfold switchRow
  rw [hp]
  obtain ⟨q, hq, -⟩ := out_row_eq (s.kp.currentRow + 1) false
    { s with
      pin := { s.pin with row := Four.set s.pin.row s.kp.currentRow .high }
      trace := s.trace ++ [.out (.row s.kp.currentRow) true]
      kp := { s.kp with currentRow := s.kp.currentRow + 1, pcPending := p } }
  refine ⟨q, hq.trans ?_⟩
  simp [Level.ofBit]

/-! The columns and the tick. -/

/-- The level of one column (R58). -/
theorem colLevel_bit (s : State) (c : BitVec 2) :
    s.colLevel.getLsbD c.toNat = !columnLow s.env.pressed s.pin.row c := by
  have bits : ∀ x3 x2 x1 x0 : Bool, ∀ v : BitVec 4,
      v = BitVec.ofBool x3 ++ BitVec.ofBool x2 ++ BitVec.ofBool x1 ++ BitVec.ofBool x0 →
      v.getLsbD 0 = x0 ∧ v.getLsbD 1 = x1 ∧ v.getLsbD 2 = x2 ∧ v.getLsbD 3 = x3 := by decide
  obtain ⟨h0, h1, h2, h3⟩ := bits _ _ _ _ s.colLevel rfl
  rcases index_cases c with rfl | rfl | rfl | rfl
  exacts [h0, h1, h2, h3]

/-- Equal column levels, column by column. -/
theorem colLevel_ext {s t : State}
    (h : ∀ c, columnLow s.env.pressed s.pin.row c = columnLow t.env.pressed t.pin.row c) : s.colLevel = t.colLevel := by
  simp [State.colLevel, h]

/-- The tick past its guards in closed form: the counters, then the callback (R136, R137). -/
theorem countTick_eq (s : State) : countTick s =
    { s with
      clk := { s.clk with
        halfSecondPhase := s.clk.halfSecondPhase ^^^ 1#1
        secondsElapsed :=
          if s.clk.halfSecondPhase ^^^ 1#1 = 0#1 then s.clk.secondsElapsed + 1#32 else s.clk.secondsElapsed
        cbActive := if s.clk.callback = 0 then s.clk.cbActive else true }
      trace := s.trace ++ if s.clk.callback = 0 then [] else [.callback s.clk.callback] } := by
  have e : countTick s =
      if s.clk.callback = 0 then { s with clk := s.clk.count } else State.enterCallback { s with clk := s.clk.count } := rfl
  rw [e]
  by_cases h : s.clk.callback = 0
  · rw [if_pos h, if_pos h, if_pos h, List.append_nil]; rfl
  · rw [if_neg h, if_neg h, if_neg h]; rfl

/-! The known bytes of the external controller. -/

theorem cellAt_putCell_same (a : Nat) (b : Byte) (l : List Host.Cell) : cellAt a (putCell a b l) = some b := by
  induction l with
  | nil => simp [putCell, cellAt]
  | cons x l ih =>
    obtain ⟨x, y⟩ := x
    simp only [putCell]
    split
    · simp [cellAt]
    · split
      · simp [cellAt]
      · simp [cellAt, *]

theorem cellAt_putCell_other (a c : Nat) (b : Byte) (l : List Host.Cell) (h : c ≠ a) :
    cellAt c (putCell a b l) = cellAt c l := by
  induction l with
  | nil => simp [putCell, cellAt, h]
  | cons x l ih =>
    obtain ⟨x, y⟩ := x
    simp only [putCell]
    split
    · simp [cellAt, h]
    · split
      · rename_i hx; subst hx; simp [cellAt, h]
      · simp [cellAt, ih]

end Sys2Proof.Machine
end

