-- ==== Sys2Proof/Laws/Display.lean ====
section
/-! SUPPORT. What the CharDisplay's parts do, said once: bytes and texts on the bus (R192, R198), the wake sequence (R195),
the computed command bytes as numbers (R104, R106, R107, R201), the window (R232, R233). -/

namespace Sys2Proof.Machine

theorem sent_one (rs : Bool) (b : Byte) (s : State) :
    s.sent [(rs, b)] = { s with trace := s.trace ++ byteEvents s.mode rs b, pin := s.pin.afterByte rs b } := by
  simp [State.sent, bytesEvents, Pins.afterBytes]

theorem sent_dataBytes (text : List Byte) (s : State) : s.sent (dataBytes text) = { s with
    trace := s.trace ++ text.flatMap (byteEvents s.mode true)
    pin := (text.getLast?.map fun b => s.pin.afterByte true b).getD s.pin } := by
  simp only [State.sent, bytesEvents, Pins.afterBytes, dataBytes, List.getLast?_map, List.flatMap_map]
  cases text.getLast? <;> rfl

theorem wakeSequence_eq (s : State) : wakeSequence s = { s with
    trace := s.trace ++ ([.out .rs false, .out .e false, .wait .powerOn]
      ++ nibbleEvents s.mode 0x3#4 ++ [.wait .wake1] ++ nibbleEvents s.mode 0x3#4 ++ [.wait .wake2]
      ++ nibbleEvents s.mode 0x3#4 ++ [.wait .wake3] ++ nibbleEvents s.mode 0x2#4 ++ [.wait .exec])
    pin := { s.pin with rs := .low, e := .low, d4 := .low, d5 := .high, d6 := .low, d7 := .low } } := by
  have n3 := fun s : State => nibble_eq 0x3#8 0x3#4 s (by decide)
  have n2 := fun s : State => nibble_eq 0x2#8 0x2#4 s (by decide)
  simp only [wakeSequence, n3, n2]
  simp [State.out, State.emit, State.wait, Pins.drive, Level.ofBit, State.mode, Pins.afterNibble]

/-! Command bytes as numbers. -/

theorem displayControlByte_eq (f : DispCtl) : displayControlByte f = dispByte f := by
  obtain ⟨d, c, b⟩ := f; revert d c b; decide

theorem cursorByte_eq {col : Nat} {row : Byte} (hc : col < 16) (hr : row.toNat < 4) :
    cursorByte (BitVec.ofNat 8 col) (rowIndex row) = ddramByte col row.toNat := by
  have h : ∀ c < 16, ∀ r < 4, cursorByte (BitVec.ofNat 8 c) (rowIndex (BitVec.ofNat 8 r)) = ddramByte c r := by decide
  have := h col hc row.toNat hr
  simpa using this

theorem cursorByte_row (row : BitVec 2) : cursorByte 0 row = ddramByte 0 row.toNat := by revert row; decide

/-! The window. -/

theorem windowByte_eq {text : List Byte} {p i : Nat} (h : 0 < text.length) :
    windowByte text p i = text.getD ((p + i) % text.length) 0 := by
  have hi := Nat.mod_lt (p + i) h
  simp [windowByte, List.getElem?_eq_getElem hi]

/-! Glyphs. -/

theorem afterBytes_concat (f : Pins) (l : List (Bool × Byte)) (x : Bool × Byte) :
    f.afterBytes (l ++ [x]) = f.afterByte x.1 x.2 := by simp [Pins.afterBytes]

/-- CreateCharBody: the address, the row patterns, the return to DDRAM, the count (R241). -/
theorem createCharBody_eq (n : Nat) (bitmap : List Byte) (s : State) : createCharBody n bitmap s = { s with
    trace := s.trace ++ bytesEvents s.mode (glyphBytes n bitmap)
    pin := s.pin.afterByte false 0x80#8
    lcd := { s.lcd with glyphCount := max s.lcd.glyphCount (n + 1) } } := by
  simp only [createCharBody, sendCommand_eq, sendText_eq, sent_sent]
  have h : [cmdByte (slotByte n)] ++ (dataBytes bitmap ++ [cmdByte 0x80#8]) = glyphBytes n bitmap := by simp [glyphBytes]
  have hp : s.pin.afterBytes (glyphBytes n bitmap) = s.pin.afterByte false 0x80#8 :=
    afterBytes_concat s.pin (cmdByte (slotByte n) :: dataBytes bitmap) (cmdByte 0x80#8)
  simp only [List.append_assoc, h]
  simp [State.sent, hp, State.mode]

theorem bytesEvents_glyphBytes (m : Mode) (n : Nat) (bitmap : List Byte) : bytesEvents m (glyphBytes n bitmap) =
    byteEvents m false (BitVec.ofNat 8 (0x40 + n * 8)) ++ bitmap.flatMap (byteEvents m true)
      ++ byteEvents m false 0x80#8 := by
  simp [glyphBytes, bytesEvents, cmdByte, dataBytes, slotByte, List.flatMap_map]

end Sys2Proof.Machine
end

