-- ==== Sys2Proof/Laws/Keypad.lean ====
section
/-! SUPPORT. What the KeyScanner's parts do, said once: the pin-change latch (R46, R271), the row switch (R165), the
debounce gate (R162, R163), the column match (R167). -/

namespace Sys2Proof.Machine

theorem row_next (r : BitVec 2) : r + 1 = BitVec.ofNat 2 ((r.toNat + 1) % 4) := by revert r; decide

theorem row_ne_next (r : BitVec 2) : r ≠ r + 1 := by revert r; decide

/-! The latch. -/

theorem out_row_latched (i : BitVec 2) (b : Bool) {s : State} (h : s.kp.pcPending = true) :
    (s.out (.row i) b).kp.pcPending = true := by simp [State.out, h]

theorem out_row_changed (i : BitVec 2) (b : Bool) {s : State} (h : s.kp.initialised = true)
    (hc : (s.out (.row i) b).colLevel ≠ s.colLevel) : (s.out (.row i) b).kp.pcPending = true := by
  have e : (s.out (.row i) b).colLevel =
      (State.emit (.out (.row i) b) { s with pin := s.pin.drive (.row i) b }).colLevel := rfl
  rw [e] at hc
  simp [State.out, h, hc]

/-- The state between the two halves of a row switch. -/
theorem switchRow_halves (s : State) : ∃ u : State, switchRow s = u.out (.row (s.kp.currentRow + 1)) false
    ∧ u.kp.pcPending = (s.out (.row s.kp.currentRow) true).kp.pcPending
    ∧ u.kp.initialised = s.kp.initialised
    ∧ u.colLevel = (s.out (.row s.kp.currentRow) true).colLevel := ⟨_, rfl, rfl, rfl, rfl⟩

theorem switchRow_latched {s : State} (h : s.kp.pcPending = true) : (switchRow s).kp.pcPending = true := by
  obtain ⟨u, e, hp, -, -⟩ := switchRow_halves s
  rw [e]
  exact out_row_latched _ _ (hp.trans (out_row_latched _ _ h))

/-- The latch after a row switch, said once: what it was, or a change of the column levels at either Out while armed, even
one that the second Out reverts (R46). -/
theorem switchRow_pcPending (s : State) : (switchRow s).kp.pcPending =
    (s.kp.pcPending || (s.kp.initialised && (s.out (.row s.kp.currentRow) true).colLevel != s.colLevel)
      || (s.kp.initialised && (switchRow s).colLevel != (s.out (.row s.kp.currentRow) true).colLevel)) := rfl

/-- A row switch that changes the column levels while the detector is armed latches the change. -/
theorem switchRow_changed {s : State} (h : s.kp.initialised = true) (hc : (switchRow s).colLevel ≠ s.colLevel) :
    (switchRow s).kp.pcPending = true := by
  obtain ⟨u, e, hp, hi, hl⟩ := switchRow_halves s
  by_cases h1 : (s.out (.row s.kp.currentRow) true).colLevel = s.colLevel
  · rw [e] at hc ⊢
    exact out_row_changed _ _ (hi.trans h) (by rw [hl, h1]; exact hc)
  · rw [e]
    exact out_row_latched _ _ (hp.trans (out_row_changed _ _ h h1))

/-! What the row switch and the first row drive leave alone. -/

@[simp] theorem switchRow_cfg (s : State) : (switchRow s).cfg = s.cfg := rfl
@[simp] theorem switchRow_clk (s : State) : (switchRow s).clk = s.clk := rfl
@[simp] theorem switchRow_lcd (s : State) : (switchRow s).lcd = s.lcd := rfl
@[simp] theorem switchRow_timeSamples (s : State) : (switchRow s).timeSamples = s.timeSamples := rfl
@[simp] theorem switchRow_faults (s : State) : (switchRow s).faults = s.faults := rfl
@[simp] theorem switchRow_refused (s : State) : (switchRow s).refused = s.refused := rfl
@[simp] theorem switchRow_env (s : State) : (switchRow s).env = s.env := rfl
@[simp] theorem switchRow_issued (s : State) : (switchRow s).issued = s.issued := rfl
@[simp] theorem switchRow_replies (s : State) : (switchRow s).replies = s.replies := rfl
@[simp] theorem switchRow_cmd (s : State) : (switchRow s).cmd = s.cmd := rfl
@[simp] theorem switchRow_cbCmd (s : State) : (switchRow s).cbCmd = s.cbCmd := rfl
@[simp] theorem switchRow_sched (s : State) : (switchRow s).sched = s.sched := rfl
@[simp] theorem switchRow_kp_keyDetectedFlag (s : State) : (switchRow s).kp.keyDetectedFlag = s.kp.keyDetectedFlag := rfl
@[simp] theorem switchRow_kp_lastDebounceTimestamp (s : State) : (switchRow s).kp.lastDebounceTimestamp = s.kp.lastDebounceTimestamp := rfl
@[simp] theorem switchRow_kp_initialised (s : State) : (switchRow s).kp.initialised = s.kp.initialised := rfl
@[simp] theorem switchRow_kp_gkPhase (s : State) : (switchRow s).kp.gkPhase = s.kp.gkPhase := rfl
@[simp] theorem switchRow_kp_gkTime (s : State) : (switchRow s).kp.gkTime = s.kp.gkTime := rfl
@[simp] theorem switchRow_pin_rs (s : State) : (switchRow s).pin.rs = s.pin.rs := rfl
@[simp] theorem switchRow_pin_e (s : State) : (switchRow s).pin.e = s.pin.e := rfl
@[simp] theorem switchRow_pin_d4 (s : State) : (switchRow s).pin.d4 = s.pin.d4 := rfl
@[simp] theorem switchRow_pin_d5 (s : State) : (switchRow s).pin.d5 = s.pin.d5 := rfl
@[simp] theorem switchRow_pin_d6 (s : State) : (switchRow s).pin.d6 = s.pin.d6 := rfl
@[simp] theorem switchRow_pin_d7 (s : State) : (switchRow s).pin.d7 = s.pin.d7 := rfl
@[simp] theorem driveRowsActive_cfg (s : State) : (driveRowsActive s).cfg = s.cfg := rfl
@[simp] theorem driveRowsActive_clk (s : State) : (driveRowsActive s).clk = s.clk := rfl
@[simp] theorem driveRowsActive_lcd (s : State) : (driveRowsActive s).lcd = s.lcd := rfl
@[simp] theorem driveRowsActive_timeSamples (s : State) : (driveRowsActive s).timeSamples = s.timeSamples := rfl
@[simp] theorem driveRowsActive_faults (s : State) : (driveRowsActive s).faults = s.faults := rfl
@[simp] theorem driveRowsActive_refused (s : State) : (driveRowsActive s).refused = s.refused := rfl
@[simp] theorem driveRowsActive_env (s : State) : (driveRowsActive s).env = s.env := rfl
@[simp] theorem driveRowsActive_issued (s : State) : (driveRowsActive s).issued = s.issued := rfl
@[simp] theorem driveRowsActive_replies (s : State) : (driveRowsActive s).replies = s.replies := rfl
@[simp] theorem driveRowsActive_cmd (s : State) : (driveRowsActive s).cmd = s.cmd := rfl
@[simp] theorem driveRowsActive_cbCmd (s : State) : (driveRowsActive s).cbCmd = s.cbCmd := rfl
@[simp] theorem driveRowsActive_sched (s : State) : (driveRowsActive s).sched = s.sched := rfl
@[simp] theorem driveRowsActive_kp_currentRow (s : State) : (driveRowsActive s).kp.currentRow = s.kp.currentRow := rfl
@[simp] theorem driveRowsActive_kp_keyDetectedFlag (s : State) : (driveRowsActive s).kp.keyDetectedFlag = s.kp.keyDetectedFlag := rfl
@[simp] theorem driveRowsActive_kp_lastDebounceTimestamp (s : State) : (driveRowsActive s).kp.lastDebounceTimestamp = s.kp.lastDebounceTimestamp := rfl
@[simp] theorem driveRowsActive_kp_initialised (s : State) : (driveRowsActive s).kp.initialised = s.kp.initialised := rfl
@[simp] theorem driveRowsActive_kp_gkPhase (s : State) : (driveRowsActive s).kp.gkPhase = s.kp.gkPhase := rfl
@[simp] theorem driveRowsActive_kp_gkTime (s : State) : (driveRowsActive s).kp.gkTime = s.kp.gkTime := rfl
@[simp] theorem driveRowsActive_pin_rs (s : State) : (driveRowsActive s).pin.rs = s.pin.rs := rfl
@[simp] theorem driveRowsActive_pin_e (s : State) : (driveRowsActive s).pin.e = s.pin.e := rfl
@[simp] theorem driveRowsActive_pin_d4 (s : State) : (driveRowsActive s).pin.d4 = s.pin.d4 := rfl
@[simp] theorem driveRowsActive_pin_d5 (s : State) : (driveRowsActive s).pin.d5 = s.pin.d5 := rfl
@[simp] theorem driveRowsActive_pin_d6 (s : State) : (driveRowsActive s).pin.d6 = s.pin.d6 := rfl
@[simp] theorem driveRowsActive_pin_d7 (s : State) : (driveRowsActive s).pin.d7 = s.pin.d7 := rfl
@[simp] theorem switchRow_kp_currentRow (s : State) : (switchRow s).kp.currentRow = s.kp.currentRow + 1 := rfl
@[simp] theorem switchRow_pin_row (s : State) :
    (switchRow s).pin.row = Four.set (Four.set s.pin.row s.kp.currentRow .high) (s.kp.currentRow + 1) .low := rfl
@[simp] theorem switchRow_trace (s : State) :
    (switchRow s).trace = s.trace ++ [.out (.row s.kp.currentRow) true, .out (.row (s.kp.currentRow + 1)) false] := by
  obtain ⟨p, h⟩ := switchRow_eq s
  rw [h]
@[simp] theorem driveRowsActive_pin_row (s : State) : (driveRowsActive s).pin.row = ⟨.low, .low, .low, .low⟩ := rfl

/-- KPD_INIT's row drive: four events, all rows low, and p the latch after it (R161). -/
theorem driveRowsActive_eq (s : State) : ∃ p, driveRowsActive s = { s with
    pin := { s.pin with row := ⟨.low, .low, .low, .low⟩ }
    trace := s.trace ++ [.out (.row 0) false, .out (.row 1) false, .out (.row 2) false, .out (.row 3) false]
    kp := { s.kp with pcPending := p } } := by
  unfold driveRowsActive
  obtain ⟨p0, h0, -⟩ := out_row_eq 0 false s
  rw [h0]
  obtain ⟨p1, h1, -⟩ := out_row_eq 1 false _
  rw [h1]
  obtain ⟨p2, h2, -⟩ := out_row_eq 2 false _
  rw [h2]
  obtain ⟨p3, h3, -⟩ := out_row_eq 3 false _
  rw [h3]
  refine ⟨p3, ?_⟩
  simp [Four.set, Level.ofBit]

/-! The gate. -/

theorem getKeyFirstHalf_rejected {s : State} (h : (s.now - s.kp.lastDebounceTimestamp).toNat < s.cfg.debounceMs) :
    getKeyFirstHalf s = s.sampleTime.reply (Config.noKey.setWidth 32) := by
  simp only [getKeyFirstHalf]
  rw [if_pos]
  simp only [debounceOpen, h, decide_true]

theorem getKeyFirstHalf_passed {s : State} (h : s.cfg.debounceMs ≤ (s.now - s.kp.lastDebounceTimestamp).toNat) :
    getKeyFirstHalf s =
      { (switchRow s.sampleTime).wait .settle with
        kp := { (switchRow s.sampleTime).kp with gkTime := s.now, gkPhase := .switched } } := by
  simp only [getKeyFirstHalf]
  rw [if_neg]
  · rfl
  · simpa only [debounceOpen, decide_eq_true_eq, not_lt] using h

/-! The column match. -/

theorem firstLowColumn_none {v : BitVec 4} (h : ∀ c : BitVec 2, v.getLsbD c.toNat = true) : firstLowColumn v = none := by
  revert v; decide

theorem firstLowColumn_some {v : BitVec 4} {c : BitVec 2} (h : v.getLsbD c.toNat = false)
    (hd : ∀ d : BitVec 2, d.toNat < c.toNat → v.getLsbD d.toNat = true) : firstLowColumn v = some c := by
  revert v c; decide

/-- Where some column is low, there is a first one. -/
theorem first_low_exists {v : BitVec 4} {c : BitVec 2} (h : v.getLsbD c.toNat = false) :
    ∃ c : BitVec 2, v.getLsbD c.toNat = false ∧ ∀ d : BitVec 2, d.toNat < c.toNat → v.getLsbD d.toNat = true := by
  revert v c; decide

end Sys2Proof.Machine
end

