-- ==== Sys2Proof/Laws/Effects.lean ====
section
/-! SUPPORT. What a CharDisplay command or micro-operation can touch, said once: the LCD pins, the trace, the display
state and the records of the port, and nothing of the other sub-blocks (R89, R209). -/

namespace Sys2Proof.Machine

/-- t is s after a CharDisplay effect with n replies. -/
structure LcdEffect (n : Nat) (s t : State) : Prop where
  cfg : t.cfg = s.cfg
  clk : t.clk = s.clk
  kp : t.kp = s.kp
  rows : t.pin.row = s.pin.row
  enable : s.pin.e ≠ .high → t.pin.e ≠ .high
  simMode : t.lcd.simMode = s.lcd.simMode
  faults : t.faults = s.faults
  env : t.env = s.env
  sched : t.sched = s.sched
  cmd : t.cmd = s.cmd
  cbCmd : t.cbCmd = s.cbCmd
  issued : t.issued = s.issued
  trace : s.trace <+: t.trace
  timeSamples : t.timeSamples = s.timeSamples
  refused : s.refused = true → t.refused = true
  replies : ∃ l, l.length = n ∧ t.replies = s.replies ++ l

theorem afterBytes_row (l : List (Bool × Byte)) (f : Pins) : (f.afterBytes l).row = f.row := by
  unfold Pins.afterBytes; split <;> rfl

theorem afterBytes_enable (l : List (Bool × Byte)) {f : Pins} (h : f.e ≠ .high) : (f.afterBytes l).e ≠ .high := by
  unfold Pins.afterBytes; split <;> simp [Pins.afterByte, Pins.afterNibble, h]

theorem LcdEffect.trans {m n : Nat} {s t u : State} (h : LcdEffect m s t) (g : LcdEffect n t u) :
    LcdEffect (m + n) s u where
  cfg := g.cfg.trans h.cfg
  clk := g.clk.trans h.clk
  kp := g.kp.trans h.kp
  rows := g.rows.trans h.rows
  enable := fun x => g.enable (h.enable x)
  simMode := g.simMode.trans h.simMode
  faults := g.faults.trans h.faults
  env := g.env.trans h.env
  sched := g.sched.trans h.sched
  cmd := g.cmd.trans h.cmd
  cbCmd := g.cbCmd.trans h.cbCmd
  issued := g.issued.trans h.issued
  trace := h.trace.trans g.trace
  timeSamples := g.timeSamples.trans h.timeSamples
  refused := fun x => g.refused (h.refused x)
  replies := by
    obtain ⟨l, hl, e⟩ := h.replies
    obtain ⟨l', hl', e'⟩ := g.replies
    exact ⟨l ++ l', by simp [hl, hl'], by rw [e', e, List.append_assoc]⟩

theorem lcdEffect_sent (l : List (Bool × Byte)) (s : State) : LcdEffect 0 s (s.sent l) :=
  ⟨rfl, rfl, rfl, afterBytes_row _ _, afterBytes_enable _, rfl, rfl, rfl, rfl, rfl, rfl, rfl, List.prefix_append _ _, rfl, id,
    [], rfl, by simp⟩

theorem lcdEffect_wait (d : Delay) (s : State) : LcdEffect 0 s (s.wait d) :=
  ⟨rfl, rfl, rfl, rfl, id, rfl, rfl, rfl, rfl, rfl, rfl, rfl, List.prefix_append _ _, rfl, id, [], rfl, by simp⟩

theorem lcdEffect_reply (v : Word) (s : State) : LcdEffect 1 s (s.reply v) :=
  ⟨rfl, rfl, rfl, rfl, id, rfl, rfl, rfl, rfl, rfl, rfl, rfl, List.prefix_rfl, rfl, id, [_], rfl, rfl⟩

theorem lcdEffect_refuse (r : Reason) (s : State) : LcdEffect 1 s (s.refuse r) :=
  ⟨rfl, rfl, rfl, rfl, id, rfl, rfl, rfl, rfl, rfl, rfl, rfl, List.prefix_rfl, rfl, fun _ => rfl, [_], rfl, rfl⟩

theorem lcdEffect_lcd {l : Display} {s : State} (h : l.simMode = s.lcd.simMode) : LcdEffect 0 s { s with lcd := l } :=
  ⟨rfl, rfl, rfl, rfl, id, h, rfl, rfl, rfl, rfl, rfl, rfl, List.prefix_rfl, rfl, id, [], rfl, by simp⟩

/-- A change of the LCD pins and a longer trace. -/
theorem lcdEffect_pins {f : Pins} {tr : List Event} {s : State} (hr : f.row = s.pin.row) (he : f.e ≠ .high) :
    LcdEffect 0 s { s with pin := f, trace := s.trace ++ tr } :=
  ⟨rfl, rfl, rfl, hr, fun _ => he, rfl, rfl, rfl, rfl, rfl, rfl, rfl, List.prefix_append _ _, rfl, id, [], rfl, by simp⟩

/-! The bodies. -/

theorem lcdEffect_sendLong (b : Byte) (s : State) : LcdEffect 0 s (sendLong b s) := by
  rw [sendLong_eq]; exact (lcdEffect_sent _ s).trans (lcdEffect_wait _ _)

theorem lcdEffect_sendCommand (b : Byte) (s : State) : LcdEffect 0 s (sendCommand b s) := by
  rw [sendCommand_eq]; exact lcdEffect_sent _ s

theorem lcdEffect_sendText (text : List Byte) (s : State) : LcdEffect 0 s (sendText text s) := by
  rw [sendText_eq]; exact lcdEffect_sent _ s

theorem lcdEffect_wakeSequence (s : State) : LcdEffect 0 s (wakeSequence s) := by
  rw [wakeSequence_eq]; exact lcdEffect_pins rfl (by simp)

theorem lcdEffect_createCharBody (n : Nat) (bitmap : List Byte) (s : State) :
    LcdEffect 0 s (createCharBody n bitmap s) := by
  have h := ((lcdEffect_sendCommand (slotByte n) s).trans (lcdEffect_sendText bitmap _)).trans
    (lcdEffect_sendCommand 0x80#8 _)
  exact h.trans (lcdEffect_lcd rfl :
    LcdEffect 0 (sendCommand 0x80#8 (sendText bitmap (sendCommand (slotByte n) s))) (createCharBody n bitmap s))

/-- One more slot of createChars. -/
theorem createChars_succ (n : Nat) (bitmaps : List Byte) (s : State) :
    createChars (n + 1) bitmaps s = createCharBody n (bitmapOf bitmaps n) (createChars n bitmaps s) := by
  simp only [createChars, List.range_succ, List.foldl_append, List.foldl_cons, List.foldl_nil]

theorem lcdEffect_createChars (n : Nat) (bitmaps : List Byte) (s : State) : LcdEffect 0 s (createChars n bitmaps s) := by
  induction n with
  | zero => exact lcdEffect_lcd (l := s.lcd) rfl
  | succ n ih => rw [createChars_succ]; exact ih.trans (lcdEffect_createCharBody _ _ _)

theorem createChars_lcd (n : Nat) (bitmaps : List Byte) (s : State) :
    (createChars n bitmaps s).lcd = { s.lcd with glyphCount := max s.lcd.glyphCount n } := by
  induction n with
  | zero => simp [createChars]
  | succ n ih => rw [createChars_succ, createCharBody_eq, ih]; simp

/-- The lone nibble leaves E low and touches the LCD pins and the trace only (R108, R109). -/
theorem lcdEffect_loneNibble (v : Byte) (s : State) : LcdEffect 0 s (loneNibble v s) := by
  have h := fun t : State => nibble_eq v (v.extractLsb' 0 4) t (fun i hi => by simp [hi])
  unfold loneNibble
  split
  · rw [h]; exact lcdEffect_pins rfl (by simp [Pins.afterNibble])
  · rw [h]
    have e : (s.out .rs false) = { s with pin := s.pin.drive .rs false, trace := s.trace ++ [.out .rs false] } := rfl
    rw [e]
    simp only [List.append_assoc]
    exact lcdEffect_pins rfl (by simp [Pins.afterNibble])

@[simp] theorem nibble_lcd (v : Byte) (s : State) : (nibble v s).lcd = s.lcd := by
  simp [nibble, pulse, presentNibble, State.out]

@[simp] theorem loneNibble_lcd (v : Byte) (s : State) : (loneNibble v s).lcd = s.lcd := by
  unfold loneNibble
  split <;> simp [State.out]

end Sys2Proof.Machine
end

