-- ==== Sys2Proof/Laws/Bus.lean ====
section
/-! SUPPORT. What the bus observer sees of one nibble and of one byte, said once (R74, R77, R100, R296). -/

namespace Sys2Proof.Machine

/-- The observer after more events. -/
theorem busMonitor_append (c : Config) (tr evs : List Event) :
    busMonitor c (tr ++ evs) = evs.foldl (BusMonitor.see c) (busMonitor c tr) := by
  simp [busMonitor, List.foldl_append]

/-- A quiet observer: well timed, nothing owed, no half byte, E not high. -/
def BusMonitor.Quiet (m : BusMonitor) : Prop :=
  m.wellTimed = true ∧ m.owed = 0 ∧ m.pending = none ∧ m.pin.e ≠ .high

theorem lcdQuiet_iff (c : Config) (tr : List Event) : lcdQuiet c tr = true ↔ (busMonitor c tr).Quiet := by
  simp [lcdQuiet, BusMonitor.Quiet, and_assoc]

/-- The controller's view after a trace that leaves the bus quiet: what the transfers tell (R296). -/
theorem lcdController_quiet {c : Config} {tr : List Event} (h : (busMonitor c tr).Quiet) :
    lcdController c tr = (busMonitor c tr).transfers.foldl LcdController.receive LcdController.strayed := by
  unfold lcdController
  rw [if_pos]
  exact h.1

/-- A data byte leaves the wake count alone. -/
@[simp] theorem data_wake (d : Byte) (k : LcdController) : (k.data d).wake = k.wake := by
  unfold LcdController.data
  split <;> rfl

/-- A command byte leaves the wake count alone or the controller strayed (I9). -/
theorem instruction_wake (b : Byte) (k : LcdController) :
    (k.instruction b).wake = k.wake ∨ k.instruction b = LcdController.strayed := by
  unfold LcdController.instruction
  repeat' split
  all_goals first | exact .inl rfl | exact .inr rfl

/-- A nibble only moves the wake count. -/
@[simp] theorem receive_nibble (k : LcdController) (v : BitVec 4) :
    k.receive (.nibble v) = LcdController.waking (wakeAfter k.wake (.nibble v)) := by
  unfold LcdController.receive
  split <;> rfl

/-- After the whole wake sequence a byte is taken by its rule (R73, R100). -/
theorem receive_byte {k : LcdController} (h : k.wake = 5) (rs : Bool) (b : Byte) :
    k.receive (.byte rs b) = if rs then k.data b else k.instruction b := by
  unfold LcdController.receive
  rw [if_pos h]
  cases rs <;> rfl

/-- While the wake sequence is not complete nothing is known. -/
theorem receive_waking {k : LcdController} (t : BusTransfer) (h : (k.receive t).wake ≠ 5) :
    k.receive t = LcdController.waking (k.receive t).wake := by
  unfold LcdController.receive at h ⊢
  by_cases hk : k.wake = 5
  · rw [if_pos hk] at h ⊢
    match t with
    | .byte true d => exact absurd ((data_wake d k).trans hk) h
    | .byte false b =>
      rcases instruction_wake b k with hw | hw
      · exact absurd (hw.trans hk) h
      · simp only [hw]; rfl
    | .nibble _ => rfl
  · rw [if_neg hk] at h ⊢
    rfl

/-- A controller known to increment has taken the whole wake sequence. -/
theorem lcdController_awake {c : Config} {tr : List Event} (h : (lcdController c tr).increments = true) :
    (lcdController c tr).wake = 5 := by
  have key : ∀ (l : List BusTransfer) (k : LcdController), (k.wake ≠ 5 → k = LcdController.waking k.wake) →
      (l.foldl LcdController.receive k).wake ≠ 5 →
      l.foldl LcdController.receive k = LcdController.waking (l.foldl LcdController.receive k).wake := by
    intro l
    induction l with
    | nil => exact fun _ hk => hk
    | cons t l ih => exact fun k _ => ih _ (receive_waking t)
  have hw : (lcdController c tr).wake ≠ 5 → lcdController c tr = LcdController.waking (lcdController c tr).wake := by
    unfold lcdController
    split
    · exact key _ _ fun _ => rfl
    · exact fun _ => rfl
  refine Classical.byContradiction fun hn => ?_
  rw [hw hn] at h
  cases h

/-- The transfers of LCD_INIT (R195). -/
def initTransfers : List BusTransfer :=
  [.nibble 0x3#4, .nibble 0x3#4, .nibble 0x3#4, .nibble 0x2#4, .byte false 0x28#8, .byte false 0x0C#8, .byte false 0x06#8,
    .byte false 0x01#8]

/-- The transfers of LCD_INIT leave the controller cleared and incrementing, whatever its state before (R195, R297). -/
theorem receive_init (k : LcdController) :
    initTransfers.foldl LcdController.receive k = ⟨some (.ddram 0), true, true, [], [], 5⟩ := by
  have h3 : ∀ n, wakeAfter (wakeAfter (wakeAfter n (.nibble 0x3#4)) (.nibble 0x3#4)) (.nibble 0x3#4) = 3 := by
    intro n
    match n with
    | 0 | 1 | 2 | 3 => rfl
    | n + 4 => simp [wakeAfter, show ¬ n + 4 < 3 by omega]
  have hw : ∀ n, (LcdController.waking n).wake = n := fun _ => rfl
  simp only [initTransfers, List.foldl_cons, receive_nibble, hw, h3]
  rfl

/-- The data lines after a nibble hold it (R74, R191). -/
theorem dataNibble_driven (f : Pins) (v : BitVec 4) :
    Pins.dataNibble { f with d4 := .ofBit (v.getLsbD 0), d5 := .ofBit (v.getLsbD 1), d6 := .ofBit (v.getLsbD 2),
                             d7 := .ofBit (v.getLsbD 3) } = v := by
  have h : ∀ v : BitVec 4, BitVec.ofBool (Level.ofBit (v.getLsbD 3) == .high)
      ++ BitVec.ofBool (Level.ofBit (v.getLsbD 2) == .high) ++ BitVec.ofBool (Level.ofBit (v.getLsbD 1) == .high)
      ++ BitVec.ofBool (Level.ofBit (v.getLsbD 0) == .high) = v := by decide
  exact h v

/-- One nibble: the four lines, the pulse, and the latch at its falling edge (R190, R191). -/
theorem see_nibble (c : Config) (md : Mode) (v : BitVec 4) (m : BusMonitor) (he : m.pin.e ≠ .high) :
    (nibbleEvents md v).foldl (BusMonitor.see c) m =
      BusMonitor.latch c
        { m with
          pin := m.pin.afterNibble v
          wellTimed := m.wellTimed && m.owed == 0
          owed := 0 } := by
  have hb : (m.pin.e == Level.high) = false := by simpa using he
  simp [nibbleEvents, pulseEvents, BusMonitor.see, BusMonitor.lcdOut, BusMonitor.waited, Delay.inPulse, Pins.drive,
    Level.ofBit, Pins.afterNibble, hb]

/-- The byte of two nibbles (R100). -/
theorem byte_of_nibbles (b : Byte) : (b.extractLsb' 4 4 ++ b.extractLsb' 0 4 : Byte) = b := by revert b; decide

/-- One byte on a quiet bus: it is transferred, and what is owed after it less the execution wait is left (R100, R296). -/
theorem see_byte (c : Config) (md : Mode) (rs : Bool) (b : Byte) (m : BusMonitor) (hq : m.Quiet) :
    (byteEvents md rs b).foldl (BusMonitor.see c) m =
      { m with
        pin := m.pin.afterByte rs b
        transfers := m.transfers ++ [.byte rs b]
        owed := owedAfter c rs b - c.tExecUs } := by
  obtain ⟨hw, ho, hp, he⟩ := hq
  have h1 : (m.see c (.out .rs rs)) = { m with pin := { m.pin with rs := .ofBit rs } } := by
    simp [BusMonitor.see, BusMonitor.lcdOut, BusMonitor.closeNibble, hp, Pins.drive, hw, ho]
  have hr : (Level.ofBit rs == Level.high) = rs := by cases rs <;> rfl
  simp only [byteEvents, List.foldl_append, List.foldl_cons, List.foldl_nil, h1]
  rw [see_nibble c md (b.extractLsb' 4 4) _ (by simpa using he)]
  simp only [BusMonitor.latch, hp, hw, ho]
  rw [see_nibble c md (b.extractLsb' 0 4) _ (by simp [Pins.afterNibble])]
  simp only [BusMonitor.latch, BusMonitor.see, BusMonitor.waited, Delay.inPulse, BusMonitor.closeNibble, Delay.us]
  have hd : ∀ f : Pins, ∀ v : BitVec 4, (f.afterNibble v).dataNibble = v := fun f v => dataNibble_driven { f with e := .low } v
  have hs : ∀ f : Pins, ∀ v : BitVec 4, (f.afterNibble v).rs = f.rs := fun _ _ => rfl
  simp [hd, hs, hr, byte_of_nibbles, Pins.afterByte]
  rfl

/-- After a byte that asks for the execution wait only, the bus is quiet again (R296). -/
theorem quiet_after_byte {c : Config} {rs : Bool} {b : Byte} {m : BusMonitor} (hq : m.Quiet)
    (hb : owedAfter c rs b = c.tExecUs) (md : Mode) : ((byteEvents md rs b).foldl (BusMonitor.see c) m).Quiet := by
  rw [see_byte c md rs b m hq]
  exact ⟨hq.1, by simp [hb], hq.2.2.1, by simp [Pins.afterByte, Pins.afterNibble]⟩

/-- One byte on a quiet bus, after the whole wake sequence: the controller takes it by its rule (R73, R100). -/
theorem lcdController_byte {c : Config} {tr : List Event} (hq : (busMonitor c tr).Quiet)
    (hw : (lcdController c tr).wake = 5) (md : Mode) (rs : Bool) (b : Byte) :
    lcdController c (tr ++ byteEvents md rs b) =
      if rs then (lcdController c tr).data b else (lcdController c tr).instruction b := by
  rw [lcdController_quiet hq] at hw ⊢
  unfold lcdController lcdTraceWellTimed
  rw [busMonitor_append, see_byte c md rs b _ hq, if_pos hq.1, List.foldl_append]
  exact receive_byte hw rs b

/-- A list of bytes that ask for the execution wait only, on a quiet bus. -/
theorem see_bytes (c : Config) (md : Mode) (l : List (Bool × Byte)) (m : BusMonitor) (hq : m.Quiet)
    (hl : ∀ x ∈ l, owedAfter c x.1 x.2 = c.tExecUs) :
    (bytesEvents md l).foldl (BusMonitor.see c) m =
      { m with
        pin := m.pin.afterBytes l
        transfers := m.transfers ++ l.map fun x => .byte x.1 x.2 } := by
  induction l generalizing m with
  | nil => simp [bytesEvents, Pins.afterBytes]
  | cons x l ih =>
    have hx : owedAfter c x.1 x.2 = c.tExecUs := hl x (by simp)
    have hb : bytesEvents md (x :: l) = byteEvents md x.1 x.2 ++ bytesEvents md l := by simp [bytesEvents]
    rw [hb, List.foldl_append, ih _ (quiet_after_byte hq hx md) fun y hy => hl y (by simp [hy]), see_byte c md _ _ m hq]
    have hp := afterBytes_append m.pin [x] l
    have h1 : m.pin.afterBytes [x] = m.pin.afterByte x.1 x.2 := rfl
    rw [h1] at hp
    simp [hx, hp, hq.2.1]

/-- The bus is quiet after such a list of bytes. -/
theorem quiet_after_bytes {c : Config} {l : List (Bool × Byte)} {m : BusMonitor} (hq : m.Quiet)
    (hl : ∀ x ∈ l, owedAfter c x.1 x.2 = c.tExecUs) (md : Mode) :
    ((bytesEvents md l).foldl (BusMonitor.see c) m).Quiet := by
  rw [see_bytes c md l m hq hl]
  exact ⟨hq.1, hq.2.1, hq.2.2.1, afterBytes_enable _ hq.2.2.2⟩

/-- A wait outside a pulse pays what is owed (R296). -/
theorem see_wait (c : Config) (t : Delay) (m : BusMonitor) (ht : t.inPulse = false) (hp : m.pending = none) :
    m.see c (.wait t) = { m with owed := m.owed - t.us c } := by
  simp [BusMonitor.see, BusMonitor.waited, ht, BusMonitor.closeNibble, hp]

/-- Clear or home with its long wait: a quiet bus stays quiet, where T_LONG_US is at least the long recovery (R199, R200,
R296). -/
theorem see_long (c : Config) (md : Mode) (b : Byte) (m : BusMonitor) (hq : m.Quiet)
    (hc : Config.tLongMinUs ≤ c.tLongUs) (hb : b = 0x01#8 ∨ b = 0x02#8) :
    (byteEvents md false b ++ [Event.wait .long]).foldl (BusMonitor.see c) m =
      { m with
        pin := m.pin.afterByte false b
        transfers := m.transfers ++ [.byte false b] } := by
  have ho : owedAfter c false b = Config.tLongMinUs := by rcases hb with rfl | rfl <;> rfl
  have hz : owedAfter c false b - c.tExecUs - Delay.us c .long = 0 := by
    rw [ho]; simp only [Delay.us]; omega
  rw [List.foldl_append, see_byte c md false b m hq, List.foldl_cons, List.foldl_nil]
  rw [see_wait c .long { m with
    pin := m.pin.afterByte false b
    transfers := m.transfers ++ [.byte false b]
    owed := owedAfter c false b - c.tExecUs } rfl hq.2.2.1]
  simp [hz, hq.2.1]

/-- A lone nibble and the wait after it, on a quiet bus (R100, R195). -/
theorem see_lone_nibble (c : Config) (md : Mode) (v : BitVec 4) (t : Delay) (m : BusMonitor) (hq : m.Quiet)
    (ht : t.inPulse = false) :
    (nibbleEvents md v ++ [Event.wait t]).foldl (BusMonitor.see c) m =
      { m with
        pin := m.pin.afterNibble v
        transfers := m.transfers ++ [.nibble v] } := by
  obtain ⟨hw, ho, hp, he⟩ := hq
  have hd : (m.pin.afterNibble v).dataNibble = v := dataNibble_driven { m.pin with e := .low } v
  rw [List.foldl_append, see_nibble c md v m he]
  simp [BusMonitor.latch, BusMonitor.see, BusMonitor.waited, BusMonitor.closeNibble, ht, hp, hw, ho, hd]

/-- Every data byte asks for the execution wait only. -/
theorem owedAfter_data (c : Config) (b : Byte) : owedAfter c true b = c.tExecUs := by simp [owedAfter]

/-- Every command byte of 4 or more asks for the execution wait only. -/
theorem owedAfter_command (c : Config) {b : Byte} (h : 4 ≤ b.toNat) : owedAfter c false b = c.tExecUs := by
  have hn : ∀ k : Byte, k.toNat < 4 → (b == k) = false := by
    intro k hk
    simp only [beq_eq_false_iff_ne, ne_eq]
    rintro rfl
    omega
  simp [owedAfter, hn 0x01#8 (by decide), hn 0x02#8 (by decide), hn 0x03#8 (by decide)]

end Sys2Proof.Machine
end

