-- ==== Sys2Proof/Laws/Decode.lean ====
section
/-! SUPPORT. What the decoder's parts do, said once: the fields of a packed word (R90, R92), the rows of the opcode map as
a list (R94, R96), and decoding through a row (R97, R281). -/

namespace Sys2Proof

/-! Words as numbers. -/

theorem append_toNat {m n : Nat} (a : BitVec m) (b : BitVec n) : (a ++ b).toNat = a.toNat * 2 ^ n + b.toNat := by
  rw [BitVec.toNat_append, ← Nat.shiftLeft_add_eq_or_of_lt b.isLt, Nat.shiftLeft_eq]

theorem packWord_toNat (a b c d : Byte) :
    (packWord a b c d).toNat = a.toNat * 2 ^ 24 + b.toNat * 2 ^ 16 + c.toNat * 2 ^ 8 + d.toNat := by
  change (a ++ b ++ c ++ d : BitVec (8 + 8 + 8 + 8)).toNat = _
  rw [append_toNat, append_toNat, append_toNat]; omega

theorem h24_toNat (a : Byte) (h : BitVec 24) : (a ++ h : Word).toNat = a.toNat * 2 ^ 24 + h.toNat := append_toNat a h

theorem l16_toNat (a b : Byte) (n : BitVec 16) :
    (a ++ b ++ n : Word).toNat = a.toNat * 2 ^ 24 + b.toNat * 2 ^ 16 + n.toNat := by
  rw [append_toNat, append_toNat]; omega

theorem opField_toNat (w : Word) : (opField w).toNat = w.toNat / 2 ^ 24 := by
  simp [opField, Nat.shiftRight_eq_div_pow]; omega

theorem aField_toNat (w : Word) : (aField w).toNat = w.toNat / 2 ^ 16 % 256 := by
  simp [aField, Nat.shiftRight_eq_div_pow]

theorem bField_toNat (w : Word) : (bField w).toNat = w.toNat / 2 ^ 8 % 256 := by
  simp [bField, Nat.shiftRight_eq_div_pow]

theorem cField_toNat (w : Word) : (cField w).toNat = w.toNat % 256 := by
  simp [cField, Nat.shiftRight_eq_div_pow]

theorem hField_toNat (w : Word) : (hField w).toNat = w.toNat % 2 ^ 24 := by
  simp [hField, Nat.shiftRight_eq_div_pow]

theorem lField_toNat (w : Word) : (lField w).toNat = w.toNat % 2 ^ 16 := by
  simp [lField, Nat.shiftRight_eq_div_pow]

/-! Fields of a packed word. -/

@[simp] theorem opField_packWord (a b c d : Byte) : opField (packWord a b c d) = a := by
  apply BitVec.eq_of_toNat_eq; rw [opField_toNat, packWord_toNat]; omega

@[simp] theorem aField_packWord (a b c d : Byte) : aField (packWord a b c d) = b := by
  apply BitVec.eq_of_toNat_eq; rw [aField_toNat, packWord_toNat]; omega

@[simp] theorem bField_packWord (a b c d : Byte) : bField (packWord a b c d) = c := by
  apply BitVec.eq_of_toNat_eq; rw [bField_toNat, packWord_toNat]; omega

@[simp] theorem cField_packWord (a b c d : Byte) : cField (packWord a b c d) = d := by
  apply BitVec.eq_of_toNat_eq; rw [cField_toNat, packWord_toNat]; omega

@[simp] theorem opField_h24 (a : Byte) (h : BitVec 24) : opField (a ++ h) = a := by
  apply BitVec.eq_of_toNat_eq; rw [opField_toNat, h24_toNat]; omega

@[simp] theorem hField_h24 (a : Byte) (h : BitVec 24) : hField (a ++ h) = h := by
  apply BitVec.eq_of_toNat_eq; rw [hField_toNat, h24_toNat]; omega

@[simp] theorem opField_l16 (a b : Byte) (n : BitVec 16) : opField (a ++ b ++ n) = a := by
  apply BitVec.eq_of_toNat_eq; rw [opField_toNat, l16_toNat]; omega

@[simp] theorem aField_l16 (a b : Byte) (n : BitVec 16) : aField (a ++ b ++ n) = b := by
  apply BitVec.eq_of_toNat_eq; rw [aField_toNat, l16_toNat]; omega

@[simp] theorem lField_l16 (a b : Byte) (n : BitVec 16) : lField (a ++ b ++ n) = n := by
  apply BitVec.eq_of_toNat_eq; rw [lField_toNat, l16_toNat]; omega

@[simp] theorem direction_of_dByte (d : Direction) : directionOfBit ((dByte (bitOfDirection d)).getLsbD 0) = d := by
  cases d <;> rfl

@[simp] theorem dByte_reserved (d : Direction) : (dByte (bitOfDirection d)).extractLsb' 1 7 = 0 := by
  cases d <;> rfl

/-! Decoding through a row. -/

/-- The rows of hostRow as a list. -/
def hostRows : List (Nat × HostRow) :=
  [(0x01, bareRow .n fun _ => .clkConfigure),
   (0x02, bareRow .n fun _ => .clkStart),
   (0x03, bareRow .n fun _ => .clkStop),
   (0x04, bareRow .n fun _ => .clkReset),
   (0x05, bareRow .n fun _ => .clkGetSeconds),
   (0x06, bareRow .n fun _ => .clkGetTotalHalfTicks),
   (0x07, bareRow .h24 fun w => .clkSetTickCallback (hField w)),
   (0x20, bareRow .n fun _ => .kpdInit),
   (0x21, bareRow .n fun _ => .kpdGetKey),
   (0x22, bareRow .n fun _ => .kpdStatus),
   (0x40, bareRow .n fun _ => .lcdInit),
   (0x41, bareRow .b8 fun w => .lcdCommand (cField w)),
   (0x42, bareRow .b8 fun w => .lcdWriteChar (cField w)),
   (0x43, ⟨.l16, fun w => .exactly (lField w).toNat, fun _ p => .lcdPrint p⟩),
   (0x44, bareRow .n fun _ => .lcdClear),
   (0x45, bareRow .n fun _ => .lcdHome),
   (0x46, bareRow .cr fun w => .lcdSetCursor (bField w) (cField w)),
   (0x47, bareRow .n fun _ => .lcdDisplayOn),
   (0x48, bareRow .n fun _ => .lcdDisplayOff),
   (0x49, bareRow .n fun _ => .lcdCursorOn),
   (0x4A, bareRow .n fun _ => .lcdCursorOff),
   (0x4B, bareRow .n fun _ => .lcdBlinkOn),
   (0x4C, bareRow .n fun _ => .lcdBlinkOff),
   (0x60, ⟨.scr, fun w => .exactly (cField w).toNat, fun w p => .lcdStartScroll (aField w) (directionOfBit ((bField w).getLsbD 0)) p⟩),
   (0x61, bareRow .n fun _ => .lcdStopScroll),
   (0x62, bareRow .n fun _ => .lcdUpdateScroll),
   (0x63, bareRow .d1 fun w => .lcdSetScrollDirection (directionOfBit ((cField w).getLsbD 0))),
   (0x64, bareRow .n fun _ => .lcdIsScrolling),
   (0x65, bareRow .n fun _ => .lcdGetScrollPosition),
   (0x70, ⟨.g, fun _ => .exactly 8, fun w p => .lcdCreateChar (cField w) p⟩),
   (0x71, ⟨.g, fun w => if (cField w).toNat ≤ 8 then .exactly (8 * (cField w).toNat) else .any, fun w p => .lcdCreateChars (cField w) p⟩),
   (0x72, bareRow .b8 fun w => .lcdWriteCustomChar (cField w))]

/-- Every row of the opcode map is in the list. -/
theorem hostRow_mem {op : Nat} {row : HostRow} (h : hostRow op = some row) : (op, row) ∈ hostRows := by
  unfold hostRow at h
  split at h <;> cases h
  all_goals unfold hostRows; repeat first | exact List.Mem.head _ | apply List.Mem.tail

/-- An OP value with no row is none of the list. -/
theorem hostRow_none {op : Nat} (h : hostRow op = none) : op ∉ hostRows.map Prod.fst := by
  intro hm
  simp only [hostRows, List.map_cons, List.map_nil, List.mem_cons, List.not_mem_nil, or_false] at hm
  repeat' obtain rfl | hm := hm
  all_goals cases h

/-- A word of a row, its reserved bits clear, with a payload of the length it demands, decodes to the row's
instruction. -/
theorem decodeHost_ok {w : Word} {p : List Byte} {row : HostRow} (h : hostRow (opField w).toNat = some row)
    (hr : reservedClear row.format w = true) (hl : (row.length w).fits p = true) :
    decodeHost ⟨w, p⟩ = .ok (row.build w p) := by simp [decodeHost, h, hr, hl]

/-- All that decoding a host command can answer. -/
theorem decodeHost_cases (w : Word) (p : List Byte) :
    (hostRow (opField w).toNat = none ∧ decodeHost ⟨w, p⟩ = .error .illegalCommand)
      ∨ ∃ row, hostRow (opField w).toNat = some row ∧
        ((reservedClear row.format w = false ∧ decodeHost ⟨w, p⟩ = .error .illegalCommand)
          ∨ (reservedClear row.format w = true ∧ (row.length w).fits p = false
              ∧ decodeHost ⟨w, p⟩ = .error .badPayload)
          ∨ (reservedClear row.format w = true ∧ (row.length w).fits p = true
              ∧ decodeHost ⟨w, p⟩ = .ok (row.build w p))) := by
  cases h : hostRow (opField w).toNat with
  | none => exact .inl ⟨rfl, by simp [decodeHost, h]⟩
  | some row =>
    refine .inr ⟨row, rfl, ?_⟩
    cases hr : reservedClear row.format w
    · exact .inl ⟨rfl, by simp [decodeHost, h, hr]⟩
    · cases hl : (row.length w).fits p
      · exact .inr (.inl ⟨rfl, rfl, by simp [decodeHost, h, hr, hl]⟩)
      · exact .inr (.inr ⟨rfl, rfl, decodeHost_ok h hr hl⟩)

/-- A word of format N with an empty payload decodes to its row's instruction. -/
theorem decodeHost_formatN (op : Byte) (i : Instr) (h : hostRow op.toNat = some (bareRow .n fun _ => i)) :
    decodeHost ⟨packWord op 0 0 0, []⟩ = .ok i := by
  refine (decodeHost_ok (row := bareRow .n fun _ => i) ?_ ?_ ?_).trans rfl
  · simpa using h
  · simp [bareRow, reservedClear]
  · rfl

end Sys2Proof
end

