-- ==== Sys2Proof/Laws/PerInstr.lean ====
section
/-! SUPPORT. One lemma per instruction: the encoding of a well-formed instruction names a row of the opcode map, and its
payload has the length that row demands (R91, R92, R94). -/

namespace Sys2Proof.Laws.PayloadFits

/-- The command that encodes i, if i is a host command, has a row, and its payload the length the row demands. -/
def Statement (i : Instr) : Prop :=
  i.wf = true → ∀ c, encode i = some (.host c) →
    ∃ row, hostRow (opField c.word).toNat = some row ∧ (row.length c.word).fits c.payload = true

/-- An instruction whose encoding is no host command. -/
theorem of_not_host {i : Instr} (h : ∀ c, encode i ≠ some (.host c)) : Statement i :=
  fun _ c hc => absurd hc (h c)

/-- An instruction that is encoded in a word with an OP value of a row, with a payload that fits. -/
theorem of_row {i : Instr} {w : Word} {p : List Byte} {row : HostRow} (he : encode i = some (.host ⟨w, p⟩))
    (hr : hostRow (opField w).toNat = some row) (hl : i.wf = true → (row.length w).fits p = true) : Statement i := by
  intro hw c hc
  rw [he] at hc
  cases hc
  exact ⟨row, hr, hl hw⟩

/-- An instruction of format N. -/
theorem of_formatN {i : Instr} (op : Byte) (he : encode i = encodeN op)
    (hr : hostRow op.toNat = some (bareRow .n fun _ => i)) : Statement i :=
  of_row he (by simpa using hr) fun _ => rfl

/-- An instruction of format B8 or D1. -/
theorem of_formatC {i : Instr} (op b : Byte) {f : Format} {build : Word → Instr} (he : encode i = encodeC op b)
    (hr : hostRow op.toNat = some (bareRow f build)) : Statement i :=
  of_row he (by simpa using hr) fun _ => rfl

theorem clkConfigure : Statement .clkConfigure := of_formatN 0x01#8 rfl rfl

theorem clkStart : Statement .clkStart := of_formatN 0x02#8 rfl rfl

theorem clkStop : Statement .clkStop := of_formatN 0x03#8 rfl rfl

theorem clkReset : Statement .clkReset := of_formatN 0x04#8 rfl rfl

theorem clkGetSeconds : Statement .clkGetSeconds := of_formatN 0x05#8 rfl rfl

theorem clkGetTotalHalfTicks : Statement .clkGetTotalHalfTicks := of_formatN 0x06#8 rfl rfl

theorem clkSetTickCallback (h : BitVec 24) : Statement (.clkSetTickCallback h) :=
  of_row rfl (by rw [opField_h24]; rfl) fun _ => rfl

theorem kpdInit : Statement .kpdInit := of_formatN 0x20#8 rfl rfl

theorem kpdGetKey : Statement .kpdGetKey := of_formatN 0x21#8 rfl rfl

theorem kpdStatus : Statement .kpdStatus := of_formatN 0x22#8 rfl rfl

theorem lcdInit : Statement .lcdInit := of_formatN 0x40#8 rfl rfl

theorem lcdCommand (b : Byte) : Statement (.lcdCommand b) :=
  of_formatC 0x41#8 b rfl rfl

theorem lcdWriteChar (b : Byte) : Statement (.lcdWriteChar b) :=
  of_formatC 0x42#8 b rfl rfl

theorem lcdPrint (text : List Byte) : Statement (.lcdPrint text) :=
  of_row rfl (by rw [opField_l16]; rfl) fun hw => by
    have h : text.length < 2 ^ 16 := by simpa [Instr.wf, wfText] using hw
    change (text.length == (lField _).toNat) = true
    rw [lField_l16, BitVec.toNat_ofNat, Nat.mod_eq_of_lt h, beq_self_eq_true]

theorem lcdClear : Statement .lcdClear := of_formatN 0x44#8 rfl rfl

theorem lcdHome : Statement .lcdHome := of_formatN 0x45#8 rfl rfl

theorem lcdSetCursor (col row : Byte) : Statement (.lcdSetCursor col row) :=
  of_row rfl (by rw [opField_packWord]; rfl) fun _ => rfl

theorem lcdDisplayOn : Statement .lcdDisplayOn := of_formatN 0x47#8 rfl rfl

theorem lcdDisplayOff : Statement .lcdDisplayOff := of_formatN 0x48#8 rfl rfl

theorem lcdCursorOn : Statement .lcdCursorOn := of_formatN 0x49#8 rfl rfl

theorem lcdCursorOff : Statement .lcdCursorOff := of_formatN 0x4A#8 rfl rfl

theorem lcdBlinkOn : Statement .lcdBlinkOn := of_formatN 0x4B#8 rfl rfl

theorem lcdBlinkOff : Statement .lcdBlinkOff := of_formatN 0x4C#8 rfl rfl

theorem lcdStartScroll (row : Byte) (dir : Direction) (text : List Byte) : Statement (.lcdStartScroll row dir text) :=
  of_row rfl (by rw [opField_packWord]; rfl) fun hw => by
    have h : text.length < 2 ^ 8 := by simpa [Instr.wf, wfScrollText] using hw
    change (text.length == (cField _).toNat) = true
    rw [cField_packWord, BitVec.toNat_ofNat, Nat.mod_eq_of_lt h, beq_self_eq_true]

theorem lcdStopScroll : Statement .lcdStopScroll := of_formatN 0x61#8 rfl rfl

theorem lcdUpdateScroll : Statement .lcdUpdateScroll := of_formatN 0x62#8 rfl rfl

theorem lcdSetScrollDirection (dir : Direction) : Statement (.lcdSetScrollDirection dir) :=
  of_formatC 0x63#8 (dByte (bitOfDirection dir)) rfl rfl

theorem lcdIsScrolling : Statement .lcdIsScrolling := of_formatN 0x64#8 rfl rfl

theorem lcdGetScrollPosition : Statement .lcdGetScrollPosition := of_formatN 0x65#8 rfl rfl

theorem lcdCreateChar (slot : Byte) (bitmap : List Byte) : Statement (.lcdCreateChar slot bitmap) :=
  of_row rfl (by rw [opField_packWord]; rfl) fun hw => by
    simpa [Instr.wf, wfBitmap, PayloadLength.fits] using hw

theorem lcdCreateChars (count : Byte) (bitmaps : List Byte) : Statement (.lcdCreateChars count bitmaps) :=
  of_row rfl (by rw [opField_packWord]; rfl) fun hw => by
    simp only [cField_packWord]
    split
    · simpa [Instr.wf, wfBitmaps, PayloadLength.fits, Nat.not_lt.mpr ‹_›] using hw
    · rfl

theorem lcdWriteCustomChar (slot : Byte) : Statement (.lcdWriteCustomChar slot) :=
  of_formatC 0x72#8 slot rfl rfl

theorem evTick : Statement .evTick := of_not_host nofun

theorem evPinchange : Statement .evPinchange := of_not_host nofun

theorem evCbDone : Statement .evCbDone := of_not_host nofun

theorem pulseEnable : Statement .pulseEnable := of_not_host nofun

theorem sendNibble (v : Byte) : Statement (.sendNibble v) := of_not_host nofun

theorem sendByte (rs : Bool) (b : Byte) : Statement (.sendByte rs b) := of_not_host nofun

theorem command (b : Byte) : Statement (.command b) := of_not_host nofun

theorem writeChar (b : Byte) : Statement (.writeChar b) := of_not_host nofun

theorem busClearDisplay : Statement .busClearDisplay := of_not_host nofun

theorem busReturnHome (x : Bool) : Statement (.busReturnHome x) := of_not_host nofun

theorem busEntryModeSet (id s : Bool) : Statement (.busEntryModeSet id s) := of_not_host nofun

theorem busDisplayControl (d c b : Bool) : Statement (.busDisplayControl d c b) := of_not_host nofun

theorem busFunctionSet (dl n f : Bool) (x : BitVec 2) : Statement (.busFunctionSet dl n f x) := of_not_host nofun

theorem busSetCgramAddr (a : BitVec 6) : Statement (.busSetCgramAddr a) := of_not_host nofun

theorem busSetDdramAddr (a : BitVec 7) : Statement (.busSetDdramAddr a) := of_not_host nofun

theorem busDataWrite (d : Byte) : Statement (.busDataWrite d) := of_not_host nofun

theorem busWakeNibble : Statement .busWakeNibble := of_not_host nofun

theorem bus4BitNibble : Statement .bus4BitNibble := of_not_host nofun

end Sys2Proof.Laws.PayloadFits
end

