-- ==== Sys2Proof/Laws/Run.lean ====
section
/-! SUPPORT. Runs, said once: one step and then the rest, and a run in two parts. -/

namespace Sys2Proof.Machine

theorem runSteps_zero (s : State) : runSteps 0 s = .next s := rfl

theorem core_run_next (M : Host.Core) {k : Nat} {s t : M.State} (h : M.step s = .next t) : M.run (k + 1) s = M.run k t := by
  simp [Host.Core.run, h]

theorem core_run_fault (M : Host.Core) {k : Nat} {s : M.State} {r : M.Fault} (h : M.step s = .fault r) :
    M.run (k + 1) s = .fault r := by simp [Host.Core.run, h]

theorem core_run_refused (M : Host.Core) {k : Nat} {s : M.State} {r : M.Refusal} (h : M.step s = .refused r) :
    M.run (k + 1) s = .refused r := by simp [Host.Core.run, h]

/-- A run of one more step. -/
theorem runSteps_step (k : Nat) (s : State) : runSteps (k + 1) s =
    match step s with
    | .next t => runSteps k t
    | .fault r => .fault r
    | .refused r => .refused r := by
  cases h : step s with
  | next t => exact core_run_next Sys2Proof.core h
  | fault r => exact core_run_fault Sys2Proof.core h
  | refused r => exact core_run_refused Sys2Proof.core h

theorem runSteps_succ (k : Nat) {s t : State} (h : step s = .next t) : runSteps (k + 1) s = runSteps k t := by
  rw [runSteps_step, h]

theorem runSteps_one {s t : State} (h : step s = .next t) : runSteps 1 s = .next t := runSteps_succ 0 h

/-- A run that answers a next state took its first step. -/
theorem runSteps_first {k : Nat} {s t : State} (h : runSteps (k + 1) s = .next t) :
    ∃ u, step s = .next u ∧ runSteps k u = .next t := by
  rw [runSteps_step] at h
  cases hs : step s with
  | next u => rw [hs] at h; exact ⟨u, rfl, h⟩
  | fault r => rw [hs] at h; cases h
  | refused r => rw [hs] at h; cases h

/-- A run in two parts. -/
theorem runSteps_add (a b : Nat) {s t : State} (h : runSteps a s = .next t) : runSteps (a + b) s = runSteps b t := by
  induction a generalizing s with
  | zero => injection h with h; rw [Nat.zero_add, h]
  | succ a ih =>
    obtain ⟨u, hu, hr⟩ := runSteps_first h
    rw [Nat.add_right_comm a 1 b, runSteps_succ _ hu]
    exact ih hr

/-- A step of a state without a fault: the head of the schedule has its turn (R81). -/
theorem step_turn {s : State} {c : Choice} {rest : List Choice} (hf : s.faulted = false) (hs : s.sched = c :: rest) :
    step s = takeTurn c { s with sched := rest } := by
  simp [step, stepState, hf, hs]

/-- What exec answers for each kind of turn is a next state of some agent; a next state was not faulted before. -/
theorem step_next_unfaulted {s t : State} (h : step s = .next t) : s.faulted = false := by
  cases hf : s.faulted
  · rfl
  · simp [step, stepState, hf] at h

end Sys2Proof.Machine
end

