-- ==== Sys2Proof/Tests/Slice0.lean ====
section
/-! SUPPORT. Tests: ill-formed terms refused, words written out from spec/30_encoding.md, one step at a time from the
vectors of spec/95_test_vectors.md, and for every statement with hypotheses a state and operands that meet them. -/

namespace Sys2Proof.Tests

open Sys2Proof Sys2Proof.Machine

/-! Helpers. -/

/-- The key map of the vectors, rows "123A", "456B", "789C", "*0#D". -/
def keymapT : Grid Byte :=
  ⟨⟨0x31#8, 0x32#8, 0x33#8, 0x41#8⟩, ⟨0x34#8, 0x35#8, 0x36#8, 0x42#8⟩,
   ⟨0x37#8, 0x38#8, 0x39#8, 0x43#8⟩, ⟨0x2A#8, 0x30#8, 0x23#8, 0x44#8⟩⟩

/-- The test configuration: DEBOUNCE_MS = 200, MAX_TEXT = 32, MAX_SCROLL_LEN = 64, SIM_MODE = 0. -/
def cfgT : Config where
  tickHz := 2
  debounceMs := 200
  keymap := keymapT
  tSettleUs := 10
  simMode := false
  tAsUs := ⟨1, 100⟩
  tPwUs := ⟨1, 100⟩
  tHUs := ⟨1, 100⟩
  tExecUs := 50
  tLongUs := 1520
  tPowerOnUs := 15000
  tWake1Us := 4100
  tWake2Us := 100
  tWake3Us := 100
  maxText := 32
  maxScrollLen := 64
  pins := ⟨0, 0, 0, 0, 0, 0, ⟨0, 0, 0, 0⟩, ⟨0, 0, 0, 0⟩⟩

/-- The keys of a list closed. -/
def keysAt (l : List (BitVec 2 × BitVec 2)) : Grid Bool :=
  l.foldl (fun g k => Four.set g k.1 (Four.set (Four.get g k.1) k.2 true))
    ⟨⟨false, false, false, false⟩, ⟨false, false, false, false⟩, ⟨false, false, false, false⟩, ⟨false, false, false, false⟩⟩

/-- The state after construction, no key pressed, at time 0. -/
def fresh : State := State.ofConfig cfgT (keysAt []) 0

/-- A Clock at s, p, running and configured, with a callback handle. -/
def clockAt (s : Word) (p : BitVec 1) (running : Bool) (h : BitVec 24) : State :=
  { fresh with clk := ⟨s, p, running, true, h, false⟩ }

/-- A callback is running. -/
def inCallback : State := { fresh with clk := ⟨3, 1, true, true, 0x123#24, true⟩ }

/-- A scanner after init: the row levels, the current row, the flag, the last timestamp, the keys pressed, the time. -/
def scanner (row : Four Level) (r : BitVec 2) (flag : Bool) (last : Word) (keys : List (BitVec 2 × BitVec 2)) (t : Nat) : State :=
  { State.ofConfig cfgT (keysAt keys) t with
    pin := { fresh.pin with row := row }
    kp := ⟨r, flag, last, true, false, .idle, 0⟩ }

/-- All rows low, as KPD_INIT leaves them. -/
def allLow : Four Level := ⟨.low, .low, .low, .low⟩

/-- The display initialised, its trace not yet looked at. -/
def ready : State := { fresh with lcd := { fresh.lcd with initialised := true, dispCtl := ⟨true, false, false⟩ } }

/-- "HELLO WORLD TODAY", 17 bytes. -/
def textT : List Byte :=
  [0x48#8, 0x45#8, 0x4C#8, 0x4C#8, 0x4F#8, 0x20#8, 0x57#8, 0x4F#8, 0x52#8, 0x4C#8, 0x44#8, 0x20#8, 0x54#8, 0x4F#8, 0x44#8,
   0x41#8, 0x59#8]

/-- The display scrolling textT at a position, on a row, in a direction. -/
def scrolling (p : Nat) (row : BitVec 2) (dir : Direction) : State :=
  { ready with lcd := { ready.lcd with scrollMode := .scrolling, scrollText := textT, scrollPosition := p, scrollRow := row,
                                       scrollDirection := dir } }

/-- The bitmap H of the glyph vectors. -/
def glyphH : List Byte := [0x00#8, 0x0A#8, 0x1F#8, 0x1F#8, 0x0E#8, 0x04#8, 0x00#8, 0x00#8]

/-- The instruction answers a next state with a property. -/
def gives (i : Instr) (s : State) (p : State → Bool) : Bool :=
  match exec i s with
  | .next t => p t
  | _ => false

/-- The next state of an outcome, or another state. -/
def nextOr (s : State) (o : Outcome) : State :=
  match o with
  | .next t => t
  | _ => s

/-- CMD(b) of the vectors, in real mode. -/
def cmd (b : Byte) : List Event := byteEvents .real false b

/-- DAT(b) of the vectors, in real mode. -/
def dat (b : Byte) : List Event := byteEvents .real true b

/-- The command is refused with a reason, and nothing else of the block changes. -/
def refusedWith (r : Reason) (s t : State) : Bool :=
  t == { s with refused := true, replies := s.replies ++ [.refused s.context r] }

/-! Well-formedness: an ill-formed term of each check is refused (R91, R92). -/

theorem test_wf_text : (Instr.lcdPrint (List.replicate (2 ^ 16) 0)).wf = false := by
  simp only [Instr.wf, wfText, List.length_replicate]
  decide

theorem test_wf_scroll_text : (Instr.lcdStartScroll 0 .left (List.replicate 256 0)).wf = false := by
  simp only [Instr.wf, wfScrollText, List.length_replicate]
  decide

theorem test_wf_bitmap : (Instr.lcdCreateChar 0 (List.replicate 7 0)).wf = false := by decide

theorem test_wf_bitmaps : (Instr.lcdCreateChars 2 (List.replicate 15 0)).wf = false := by decide

/-! Decoding: words written out from the encodings of the table, bit by bit. -/

/-- R94, R130 to R140: the words of the Clock commands. -/
theorem test_decode_clock :
    decodeHost ⟨0b00000001000000000000000000000000#32, []⟩ = .ok .clkConfigure
    ∧ decodeHost ⟨0b00000010000000000000000000000000#32, []⟩ = .ok .clkStart
    ∧ decodeHost ⟨0b00000011000000000000000000000000#32, []⟩ = .ok .clkStop
    ∧ decodeHost ⟨0b00000100000000000000000000000000#32, []⟩ = .ok .clkReset
    ∧ decodeHost ⟨0b00000101000000000000000000000000#32, []⟩ = .ok .clkGetSeconds
    ∧ decodeHost ⟨0b00000110000000000000000000000000#32, []⟩ = .ok .clkGetTotalHalfTicks
    ∧ decodeHost ⟨0b00000111101001010000000100100011#32, []⟩ = .ok (.clkSetTickCallback 0xA50123#24) := by decide

/-- R94, R161, R164, R169. -/
theorem test_decode_keypad :
    decodeHost ⟨0b00100000000000000000000000000000#32, []⟩ = .ok .kpdInit
    ∧ decodeHost ⟨0b00100001000000000000000000000000#32, []⟩ = .ok .kpdGetKey
    ∧ decodeHost ⟨0b00100010000000000000000000000000#32, []⟩ = .ok .kpdStatus := by decide

/-- R94, R195 to R201 (ENC-3, ENC-4). -/
theorem test_decode_display :
    decodeHost ⟨0b01000000000000000000000000000000#32, []⟩ = .ok .lcdInit
    ∧ decodeHost ⟨0b01000001000000000000000000001110#32, []⟩ = .ok (.lcdCommand 0x0E#8)
    ∧ decodeHost ⟨0b01000010000000000000000001000001#32, []⟩ = .ok (.lcdWriteChar 0x41#8)
    ∧ decodeHost ⟨0b01000011000000000000000000000010#32, [0x48#8, 0x49#8]⟩ = .ok (.lcdPrint [0x48#8, 0x49#8])
    ∧ decodeHost ⟨0b01000100000000000000000000000000#32, []⟩ = .ok .lcdClear
    ∧ decodeHost ⟨0b01000101000000000000000000000000#32, []⟩ = .ok .lcdHome
    ∧ decodeHost ⟨0b01000110000000000000010100000001#32, []⟩ = .ok (.lcdSetCursor 5#8 1#8) := by decide

/-- R94, R203 to R208. -/
theorem test_decode_toggles :
    decodeHost ⟨0b01000111000000000000000000000000#32, []⟩ = .ok .lcdDisplayOn
    ∧ decodeHost ⟨0b01001000000000000000000000000000#32, []⟩ = .ok .lcdDisplayOff
    ∧ decodeHost ⟨0b01001001000000000000000000000000#32, []⟩ = .ok .lcdCursorOn
    ∧ decodeHost ⟨0b01001010000000000000000000000000#32, []⟩ = .ok .lcdCursorOff
    ∧ decodeHost ⟨0b01001011000000000000000000000000#32, []⟩ = .ok .lcdBlinkOn
    ∧ decodeHost ⟨0b01001100000000000000000000000000#32, []⟩ = .ok .lcdBlinkOff := by decide

/-- R94, R230 to R238. -/
theorem test_decode_scroll :
    decodeHost ⟨0b01100000000000110000000100000010#32, [0x48#8, 0x49#8]⟩ = .ok (.lcdStartScroll 3#8 .right [0x48#8, 0x49#8])
    ∧ decodeHost ⟨0b01100001000000000000000000000000#32, []⟩ = .ok .lcdStopScroll
    ∧ decodeHost ⟨0b01100010000000000000000000000000#32, []⟩ = .ok .lcdUpdateScroll
    ∧ decodeHost ⟨0b01100011000000000000000000000001#32, []⟩ = .ok (.lcdSetScrollDirection .right)
    ∧ decodeHost ⟨0b01100100000000000000000000000000#32, []⟩ = .ok .lcdIsScrolling
    ∧ decodeHost ⟨0b01100101000000000000000000000000#32, []⟩ = .ok .lcdGetScrollPosition := by decide

/-- R94, R241 to R243. -/
theorem test_decode_glyph :
    decodeHost ⟨0b01110000000000000000000000000111#32, glyphH⟩ = .ok (.lcdCreateChar 7#8 glyphH)
    ∧ decodeHost ⟨0b01110001000000000000000000000001#32, glyphH⟩ = .ok (.lcdCreateChars 1#8 glyphH)
    ∧ decodeHost ⟨0b01110010000000000000000000000011#32, []⟩ = .ok (.lcdWriteCustomChar 3#8) := by decide

/-- R101 to R110. -/
theorem test_decode_bus :
    decodeBus (.byte false 0b00000001#8) = .ok .busClearDisplay
    ∧ decodeBus (.byte false 0b00000011#8) = .ok (.busReturnHome true)
    ∧ decodeBus (.byte false 0b00000110#8) = .ok (.busEntryModeSet true false)
    ∧ decodeBus (.byte false 0b00001101#8) = .ok (.busDisplayControl true false true)
    ∧ decodeBus (.byte false 0b00101000#8) = .ok (.busFunctionSet false true false 0#2)
    ∧ decodeBus (.byte false 0b01111000#8) = .ok (.busSetCgramAddr 0x38#6)
    ∧ decodeBus (.byte false 0b11000101#8) = .ok (.busSetDdramAddr 0x45#7)
    ∧ decodeBus (.byte true 0b01000001#8) = .ok (.busDataWrite 0x41#8)
    ∧ decodeBus (.nibble 0b0011#4) = .ok .busWakeNibble
    ∧ decodeBus (.nibble 0b0010#4) = .ok .bus4BitNibble := by decide

/-- ENC-7 to ENC-10, ENC-12, ENC-13. -/
theorem test_decode_refused_word :
    decodeHost ⟨0x00000000#32, []⟩ = .error .illegalCommand
    ∧ decodeHost ⟨0x01000001#32, []⟩ = .error .illegalCommand
    ∧ decodeHost ⟨0x63000002#32, []⟩ = .error .illegalCommand
    ∧ decodeHost ⟨0x60000211#32, List.replicate 17 0x41#8⟩ = .error .illegalCommand
    ∧ decodeHost ⟨0x4D000000#32, []⟩ = .error .illegalCommand
    ∧ decodeHost ⟨0x73000000#32, []⟩ = .error .illegalCommand := by decide

/-- ENC-11, ENC-14, and ENC-15, which any payload fits. -/
theorem test_decode_refused_payload :
    decodeHost ⟨0x43000003#32, [0x48#8, 0x49#8]⟩ = .error .badPayload
    ∧ decodeHost ⟨0x70000002#32, List.replicate 7 0x1F#8⟩ = .error .badPayload
    ∧ decodeHost ⟨0x71000009#32, [1#8, 2#8, 3#8]⟩ = .ok (.lcdCreateChars 9#8 [1#8, 2#8, 3#8]) := by decide

/-- R111: a display shift, the byte 0x00 and a lone nibble no rule names. -/
theorem test_decode_refused_bus :
    decodeBus (.byte false 0x1C#8) = .error .unassignedByte
    ∧ decodeBus (.byte false 0x00#8) = .error .unassignedByte
    ∧ decodeBus (.nibble 0x4#4) = .error .unassignedNibble := by decide

/-- Table words: L = 0 with no payload, a glyph word with its payload of zeros, a bus byte, a lone nibble, and a byte that only
BUS_DATA_WRITE matches (log 12). -/
theorem test_table_words :
    decodeTableWord 32 0x43000000 = some (.lcdPrint [])
    ∧ decodeTableWord 32 0x70000003 = some (.lcdCreateChar 3#8 [0, 0, 0, 0, 0, 0, 0, 0])
    ∧ decodeTableWord 8 0x81 = some (.busSetDdramAddr 1#7)
    ∧ decodeTableWord 8 0x00 = some (.busDataWrite 0#8)
    ∧ decodeTableWord 4 0x3 = some .busWakeNibble
    ∧ decodeTableWord 32 0x00000000 = none := by decide

/-! Clock. -/

/-- CLK-1 and CLK-2. -/
theorem test_clk_configure :
    gives .clkConfigure fresh (fun t => t.clk.configured && t.replies == [.result .mainFlow 0] && !t.refused)
      && gives .clkConfigure (clockAt 0 0 false 0) (refusedWith .reInit (clockAt 0 0 false 0)) = true := by decide

/-- CLK-8. -/
theorem test_clk_start : gives .clkStart (clockAt 5 1 false 0) (fun t => t.clk == ⟨5, 1, true, true, 0, false⟩) = true := by
  decide

/-- CLK-10 and CLK-17. -/
theorem test_clk_stop :
    gives .clkStop (clockAt 7 0 true 0) (fun t => t.clk == ⟨7, 0, false, true, 0, false⟩)
      && gives .clkStop inCallback (fun t => t.faults.callbackReentry && t.clk.running && t.replies == []) = true := by decide

/-- V-SRC-2. -/
theorem test_clk_reset :
    gives .clkReset (clockAt 12 1 true 0) (fun t => t.clk == ⟨0, 0, true, true, 0, false⟩) = true := by decide

/-- CLK-7 and EXC-3. -/
theorem test_clk_get_seconds :
    gives .clkGetSeconds (clockAt 0x80000000#32 1 true 0) (fun t => t.replies == [.result .mainFlow 0x80000000#32])
      && gives .clkGetSeconds inCallback (fun t => t.replies == [.result .callback 3]) = true := by decide

/-- V-SRC-11, CLK-5 and CLK-6. -/
theorem test_clk_half_ticks :
    gives .clkGetTotalHalfTicks (clockAt 9 1 true 0) (fun t => t.replies == [.result .mainFlow 19])
      && gives .clkGetTotalHalfTicks (clockAt 0xFFFFFFFF#32 1 true 0) (fun t => t.replies == [.result .mainFlow 0xFFFFFFFF#32])
      && gives .clkGetTotalHalfTicks (clockAt 0x80000000#32 1 true 0) (fun t => t.replies == [.result .mainFlow 1])
      = true := by decide

/-- CLK-12 and CLK-19. -/
theorem test_clk_callback :
    gives (.clkSetTickCallback 0x123#24) fresh (fun t => t.clk.callback == 0x123#24)
      && gives (.clkSetTickCallback 0) (clockAt 0 0 true 0x123#24) (fun t => t.clk.callback == 0) = true := by decide

/-- V-SRC-12 and CLK-4. -/
theorem test_ev_tick :
    gives .evTick (clockAt 3 1 true 0x123#24)
        (fun t => t.clk == ⟨4, 0, true, true, 0x123#24, true⟩ && t.trace == [.callback 0x123#24])
      && gives .evTick (clockAt 0xFFFFFFFF#32 1 true 0) (fun t => t.clk == ⟨0, 0, true, true, 0, false⟩ && t.trace == [])
      = true := by decide

/-- CLK-16: the tick that overruns writes nothing but the fault. -/
theorem test_ev_tick_overrun :
    gives .evTick inCallback (fun t => t == { inCallback with faults := ⟨true, false⟩ }) = true := by decide

/-- CLK-15. -/
theorem test_ev_cb_done : gives .evCbDone inCallback (fun t => !t.clk.cbActive && t.clk.callback == 0x123#24) = true := by
  decide

/-! KeyScanner. -/

/-- KPD-2 and KPD-3. -/
theorem test_kpd_init :
    gives .kpdInit fresh (fun t => t.kp == ⟨0, false, 0, true, false, .idle, 0⟩ && t.pin.row == allLow
        && t.trace == [.out (.row 0) false, .out (.row 1) false, .out (.row 2) false, .out (.row 3) false])
      && gives .kpdInit (scanner allLow 0 false 0 [] 0) (refusedWith .reInit (scanner allLow 0 false 0 [] 0)) = true := by
  decide

/-- KPD-5: the gate passes at exactly 200, row 1 goes high and row 2 low; the Now event of R16 comes first. -/
theorem test_kpd_get_key_switch :
    gives .kpdGetKey (scanner allLow 1 false 1000 [] 1200) (fun t => t.kp.currentRow == 2 && t.kp.gkPhase == .switched
        && t.trace == [.out (.row 1) true, .out (.row 2) false, .wait .settle] && t.replies == []
        && t.events == [.now 1200, .out (.row 1) true, .out (.row 2) false, .wait .settle]) = true := by decide

/-- KPD-11: the second half finds column 2 of row 1. -/
theorem test_kpd_get_key_found :
    gives .kpdGetKey (nextOr fresh (exec .kpdGetKey (scanner allLow 0 true 0 [(1, 2)] 1000)))
      (fun t => t.replies == [.result .mainFlow 0x36#32] && t.trace.getLast? == some (.inCols 0b1011#4)
        && t.kp.lastDebounceTimestamp == 1000 && !t.kp.keyDetectedFlag && t.kp.currentRow == 1) = true := by decide

/-- KPD-16 and EXC-4. -/
theorem test_kpd_status :
    gives .kpdStatus (scanner allLow 2 true 0 [] 0) (fun t => t.replies == [.result .mainFlow 6] && t.kp.keyDetectedFlag)
      && gives .kpdStatus inCallback (fun t => t.faults.callbackReentry && t.replies == []) = true := by decide

/-- KPD-14. -/
theorem test_ev_pinchange :
    gives .evPinchange { fresh with kp := { fresh.kp with pcPending := true } }
      (fun t => t.kp.keyDetectedFlag && !t.kp.pcPending) = true := by decide

/-! CharDisplay. -/

/-- V-LCD-1: the number of events, the pins and the shadow. -/
theorem test_lcd_init :
    gives .lcdInit fresh (fun t => t.trace.length == 136 && t.lcd.initialised && t.lcd.dispCtl == ⟨true, false, false⟩
      && t.pin == { fresh.pin with rs := .low, e := .low, d4 := .high, d5 := .low, d6 := .low, d7 := .low }
      && t.trace.getLast? == some (.wait .long) && (t.trace.drop 69).take 22 == cmd 0x0C#8) = true := by decide +kernel

/-- LCD-5, event by event. -/
theorem test_lcd_command :
    gives (.lcdCommand 0x0E#8) ready (fun t => t.lcd == ready.lcd && t.trace ==
      [.out .rs false, .out .d4 false, .out .d5 false, .out .d6 false, .out .d7 false,
       .out .e false, .wait (.as .real), .out .e true, .wait (.pw .real), .out .e false, .wait (.h .real),
       .out .d4 false, .out .d5 true, .out .d6 true, .out .d7 true,
       .out .e false, .wait (.as .real), .out .e true, .wait (.pw .real), .out .e false, .wait (.h .real),
       .wait .exec]) = true := by decide +kernel

/-- LCD-6, and LCD-30 in simulation mode. -/
theorem test_lcd_write_char :
    gives (.lcdWriteChar 0x41#8) ready (fun t => t.trace == dat 0x41#8 && t.replies == [.result .mainFlow 0])
      && gives (.lcdWriteChar 0x20#8) { ready with lcd := { ready.lcd with simMode := true } }
        (fun t => t.trace == byteEvents .sim true 0x20#8) = true := by decide +kernel

/-- LCD-8. -/
theorem test_lcd_print :
    gives (.lcdPrint [0x48#8, 0x49#8]) ready (fun t => t.trace == dat 0x48#8 ++ dat 0x49#8) = true := by decide +kernel

/-- LCD-31. -/
theorem test_lcd_print_too_long :
    gives (.lcdPrint (List.replicate 33 0x41#8)) ready (refusedWith .badPayload ready) = true := by decide

/-- LCD-9 and LCD-2. -/
theorem test_lcd_clear :
    gives .lcdClear ready (fun t => t.trace == cmd 0x01#8 ++ [.wait .long])
      && gives .lcdClear fresh (refusedWith .notInitialised fresh) = true := by decide +kernel

/-- LCD-10. -/
theorem test_lcd_home : gives .lcdHome ready (fun t => t.trace == cmd 0x02#8 ++ [.wait .long]) = true := by decide +kernel

/-- LCD-16 and LCD-14. -/
theorem test_lcd_set_cursor :
    gives (.lcdSetCursor 15 3) ready (fun t => t.trace == cmd 0xE3#8)
      && gives (.lcdSetCursor 15 1) ready (fun t => t.trace == cmd 0xCF#8) = true := by decide +kernel

/-- LCD-17, LCD-18 and LCD-19. -/
theorem test_lcd_set_cursor_refused :
    gives (.lcdSetCursor 16 0) ready (refusedWith .operandRange ready)
      && gives (.lcdSetCursor 0 4) ready (refusedWith .operandRange ready)
      && gives (.lcdSetCursor 16 0) fresh (refusedWith .notInitialised fresh) = true := by decide

/-- ready with another shadow. -/
def shadow (d c b : Bool) : State := { ready with lcd := { ready.lcd with dispCtl := ⟨d, c, b⟩ } }

/-- LCD-20. -/
theorem test_lcd_cursor_on :
    gives .lcdCursorOn (shadow true false false) (fun t => t.trace == cmd 0x0E#8 && t.lcd.dispCtl == ⟨true, true, false⟩)
      = true := by decide +kernel

/-- LCD-21. -/
theorem test_lcd_blink_on :
    gives .lcdBlinkOn (shadow true true false) (fun t => t.trace == cmd 0x0F#8 && t.lcd.dispCtl == ⟨true, true, true⟩)
      = true := by decide +kernel

/-- LCD-22. -/
theorem test_lcd_display_off :
    gives .lcdDisplayOff (shadow true true true) (fun t => t.trace == cmd 0x0B#8 && t.lcd.dispCtl == ⟨false, true, true⟩)
      = true := by decide +kernel

/-- LCD-23. -/
theorem test_lcd_cursor_off :
    gives .lcdCursorOff (shadow false true true) (fun t => t.trace == cmd 0x09#8 && t.lcd.dispCtl == ⟨false, false, true⟩)
      = true := by decide +kernel

/-- LCD-24. -/
theorem test_lcd_blink_off :
    gives .lcdBlinkOff (shadow false false true) (fun t => t.trace == cmd 0x08#8 && t.lcd.dispCtl == ⟨false, false, false⟩)
      = true := by decide +kernel

/-- LCD-25 and LCD-26. -/
theorem test_lcd_display_on :
    gives .lcdDisplayOn (shadow false false false) (fun t => t.trace == cmd 0x0C#8 && t.lcd.dispCtl == ⟨true, false, false⟩)
      && gives .lcdDisplayOn (shadow true false false) (fun t => t.trace == cmd 0x0C#8) = true := by decide +kernel

/-! Scroll. -/

/-- V-SRC-7: "HI" is centred at column 7, and nothing scrolls. -/
theorem test_lcd_start_scroll_short :
    gives (.lcdStartScroll 0 .left [0x48#8, 0x49#8]) (scrolling 5 0 .left)
      (fun t => t.trace == cmd 0x01#8 ++ [.wait .long] ++ cmd 0x87#8 ++ dat 0x48#8 ++ dat 0x49#8
        && t.lcd.scrollMode == .static && t.lcd.scrollText == [] && t.lcd.scrollPosition == 0) = true := by decide +kernel

/-- SCR-1 and SCR-18. -/
theorem test_lcd_start_scroll_long :
    gives (.lcdStartScroll 0 .left textT) ready (fun t => t.trace == [] && t.lcd.scrollMode == .scrolling
        && t.lcd.scrollText == textT && t.lcd.scrollPosition == 0)
      && gives (.lcdStartScroll 4 .left textT) ready (refusedWith .operandRange ready) = true := by decide

/-- SCR-16. -/
theorem test_lcd_stop_scroll :
    gives .lcdStopScroll (scrolling 5 1 .right) (fun t => t.trace == [] && t.lcd.scrollMode == .idle
      && t.lcd.scrollText == [] && t.lcd.scrollPosition == 0 && t.lcd.scrollRow == 1 && t.lcd.scrollDirection == .right)
      = true := by decide

/-- SCR-5: the window wraps, and so does the position. -/
theorem test_lcd_update_scroll_left :
    gives .lcdUpdateScroll (scrolling 16 0 .left) (fun t => t.lcd.scrollPosition == 0
      && t.trace == cmd 0x80#8 ++ (0x59#8 :: textT.take 15).flatMap dat) = true := by decide +kernel

/-- SCR-6 with the row of SCR-9. -/
theorem test_lcd_update_scroll_right :
    gives .lcdUpdateScroll (scrolling 0 1 .right) (fun t => t.lcd.scrollPosition == 16
      && t.trace == cmd 0xC0#8 ++ (textT.take 16).flatMap dat) = true := by decide +kernel

/-- SCR-17. -/
theorem test_lcd_set_scroll_direction :
    gives (.lcdSetScrollDirection .right) (scrolling 3 0 .left)
      (fun t => t.lcd.scrollDirection == .right && t.lcd.scrollPosition == 3) = true := by decide

/-- V-SRC-6 and LCD-3. -/
theorem test_lcd_is_scrolling :
    gives .lcdIsScrolling (scrolling 0 0 .left) (fun t => t.replies == [.result .mainFlow 1])
      && gives .lcdIsScrolling fresh (fun t => t.replies == [.result .mainFlow 0]) = true := by decide

/-- SCR-20. -/
theorem test_lcd_get_scroll_position :
    gives .lcdGetScrollPosition (scrolling 4 0 .left) (fun t => t.replies == [.result .mainFlow 4]) = true := by decide

/-! Glyphs. -/

/-- GLY-2 and GLY-3. -/
theorem test_lcd_create_char :
    gives (.lcdCreateChar 7 glyphH) ready (fun t => t.trace == cmd 0x78#8 ++ glyphH.flatMap dat ++ cmd 0x80#8
        && t.lcd.glyphCount == 8 && t.replies == [.result .mainFlow 1])
      && gives (.lcdCreateChar 8 glyphH) ready (fun t => t.trace == [] && t.replies == [.result .mainFlow 0]
        && t.lcd.glyphCount == 0) = true := by decide +kernel

/-- GLY-6. -/
theorem test_lcd_create_chars :
    gives (.lcdCreateChars 2 (glyphH ++ glyphH.reverse)) ready (fun t => t.lcd.glyphCount == 2
      && t.trace == cmd 0x40#8 ++ glyphH.flatMap dat ++ cmd 0x80#8 ++ cmd 0x48#8 ++ glyphH.reverse.flatMap dat ++ cmd 0x80#8)
      = true := by decide +kernel

/-- GLY-5 and V-SRC-9. -/
theorem test_lcd_create_chars_counts :
    gives (.lcdCreateChars 0 []) ready (fun t => t.trace == [] && t.replies == [.result .mainFlow 1])
      && gives (.lcdCreateChars 9 [0x01#8]) ready (fun t => t.trace == [] && t.replies == [.result .mainFlow 0]) = true := by
  decide

/-- GLY-9 and GLY-10. -/
theorem test_lcd_write_custom_char :
    gives (.lcdWriteCustomChar 3) ready (fun t => t.trace == dat 0x03#8)
      && gives (.lcdWriteCustomChar 8) ready (fun t => t.trace == [] && t.replies == [.result .mainFlow 0]) = true := by
  decide +kernel

/-! Micro-operations and bus encodings. -/

/-- R190. -/
theorem test_pulse_enable :
    gives .pulseEnable fresh (fun t => t.trace ==
      [.out .e false, .wait (.as .real), .out .e true, .wait (.pw .real), .out .e false, .wait (.h .real)]) = true := by
  decide

/-- LCD-29: the high four bits are ignored; D4 carries bit 0. -/
theorem test_send_nibble :
    gives (.sendNibble 0x53#8) fresh (fun t => t.trace.take 4 ==
      [.out .d4 true, .out .d5 true, .out .d6 false, .out .d7 false] && t.trace.length == 10) = true := by decide

/-- R192 to R194: register select, and the high nibble first. -/
theorem test_send_byte :
    gives (.sendByte true 0x10#8) fresh (fun t => t.trace == dat 0x10#8 && (t.trace.drop 1).head? == some (.out .d4 true))
      = true := by decide +kernel

/-- R193. -/
theorem test_command : gives (.command 0x06#8) fresh (fun t => t.trace == cmd 0x06#8) = true := by decide +kernel

/-- R194. -/
theorem test_write_char : gives (.writeChar 0x06#8) fresh (fun t => t.trace == dat 0x06#8) = true := by decide +kernel

/-- R101 to R104: the bytes 0x01, 0x03, 0x06, 0x0E on the bus. -/
theorem test_bus_commands :
    gives .busClearDisplay fresh (fun t => t.trace == cmd 0x01#8)
      && gives (.busReturnHome true) fresh (fun t => t.trace == cmd 0x03#8)
      && gives (.busEntryModeSet true false) fresh (fun t => t.trace == cmd 0x06#8)
      && gives (.busDisplayControl true true false) fresh (fun t => t.trace == cmd 0x0E#8) = true := by decide +kernel

/-- R105 to R107, R110: the bytes 0x28, 0x78 and 0xC5 on the bus, and a data byte. -/
theorem test_bus_addresses_and_data :
    gives (.busFunctionSet false true false 0) fresh (fun t => t.trace == cmd 0x28#8)
      && gives (.busSetCgramAddr 0x38#6) fresh (fun t => t.trace == cmd 0x78#8)
      && gives (.busSetDdramAddr 0x45#7) fresh (fun t => t.trace == cmd 0xC5#8)
      && gives (.busDataWrite 0x41#8) fresh (fun t => t.trace == dat 0x41#8) = true := by decide +kernel

/-- R108, R109: the data lines of the lone nibbles; RS is 0. -/
theorem test_bus_nibbles :
    gives .busWakeNibble fresh (fun t => t.pin.rs == .low && t.pin.d4 == .high && t.pin.d5 == .high && t.pin.d6 == .low)
      && gives .bus4BitNibble { fresh with pin := { fresh.pin with rs := .low } }
        (fun t => t.pin.d4 == .low && t.pin.d5 == .high && t.trace.length == 10) = true := by decide

/-! Steps. -/

/-- EXC-1 and EXC-2: in callback context decoding comes first. -/
theorem test_issue_in_callback :
    nextOr fresh (issue ⟨0x44000001#32, []⟩ inCallback)
        = { inCallback with refused := true, issued := [(.callback, ⟨0x44000001#32, []⟩)],
                            replies := [.refused .callback .illegalCommand] }
      ∧ (nextOr fresh (issue ⟨0x44000000#32, []⟩ inCallback)).faults = ⟨false, true⟩ := by decide

/-- EXC-6. -/
theorem test_stuck : step { inCallback with faults := ⟨false, true⟩, sched := [.cbDone] } = .fault .stuck := by rfl

/-- A table word placed at reset is the next step's instruction. -/
theorem test_fetch_word :
    (nextOr fresh (step (State.reset.withFetchWord 32 0x02000000))).clk.running = true
      ∧ (nextOr fresh (step (State.reset.withFetchWord 4 0x2))).trace.length = 11 := ⟨rfl, rfl⟩

/-- R262, R264: the codes of the fault kinds and of the refusal reasons. -/
theorem test_codes :
    [FaultKind.tickOverrun, .callbackReentry].map FaultKind.code = [1, 2]
      ∧ [Reason.illegalCommand, .badPayload, .notInitialised, .reInit, .operandRange, .badConfig].map Reason.code
          = [1, 2, 3, 4, 5, 6]
      ∧ FaultSet.codes ⟨false, true⟩ = [2] := by decide

/-- R304, TICK_PERIOD_MS = 500: armed at 0, the first tick comes at 500; a tick that was due cannot be left out before a
CLK_RESET at 700; a CLK_RESET at 400 puts the tick at 900; after a reset, a stop and a start the start counts (log 19). -/
theorem test_tick_periodic :
    tickPeriodic 500 none [(0, .armed), (500, .tick), (700, .clkReset), (1200, .tick)] = true
      ∧ tickPeriodic 500 none [(0, .armed), (700, .clkReset), (1200, .tick)] = false
      ∧ tickPeriodic 500 none [(0, .armed), (400, .clkReset), (900, .tick), (1400, .tick)] = true
      ∧ tickPeriodic 500 none [(0, .armed), (400, .clkReset), (500, .tick)] = false
      ∧ tickPeriodic 500 none [(0, .armed), (100, .clkReset), (200, .stopped), (300, .armed), (800, .tick)] = true := by decide

/-- CLK_CONFIGURE and CLK_START at 0, and ticks as time passes. -/
def timedRun (gap : Nat) : State :=
  { fresh with cmd := [⟨0x01000000#32, []⟩, ⟨0x02000000#32, []⟩], sched := [.host, .host, .passTime gap, .tick, .passTime 500, .tick] }

/-- R304 on runs: the first tick a period after CLK_START, and one too early. -/
theorem test_tick_periodic_run :
    State.tickPeriodicRun none 6 (timedRun 500) = true ∧ State.tickPeriodicRun none 6 (timedRun 400) = false
      ∧ State.tickPeriodicRun none 3 (timedRun 501) = false := by decide

/-! Witnesses: a state and operands that meet the hypotheses of each statement, at the edges of its clauses. -/

theorem witness_DecodeOfEncodeGivesInstr :
    (Instr.lcdCreateChars 8 (List.replicate 64 0)).wf = true
      ∧ encode (.lcdCreateChars 8 (List.replicate 64 0)) = some (.host ⟨0x71000008#32, List.replicate 64 0⟩)
      ∧ (Instr.lcdCreateChars 9 []).wf = true ∧ encode (.lcdCreateChars 9 []) = some (.host ⟨0x71000009#32, []⟩)
      ∧ (Instr.busReturnHome true).wf = true ∧ encode (.busReturnHome true) = some (.bus (.byte false 0x03#8)) := by
  decide +kernel

theorem witness_EncodeOfDecodeGivesCode :
    decode (.host ⟨0x60FF0100#32, []⟩) = some (.lcdStartScroll 255 .right [])
      ∧ decode (.bus (.byte false 0x3F#8)) = some (.busFunctionSet true true true 3) := by decide

theorem witness_IllegalExactlyWhenNoRowMatches :
    (∀ r ∈ opcodeMasks, 0x60000200#32 &&& r.2 ≠ r.1) ∧ ¬ ∀ r ∈ opcodeMasks, 0x60FF01FF#32 &&& r.2 ≠ r.1 := by
  simp [opcodeMasks]

/-- Both ends of every range of R96, and a word with a reserved bit. -/
theorem witness_IllegalCommandChangesNothing :
    (∀ op ∈ [0x00, 0x08, 0x1F, 0x23, 0x3F, 0x4D, 0x5F, 0x66, 0x6F, 0x73, 0xFF], unassignedOp op = true)
      ∧ unassignedOp ((0xFF000000#32 : Word).toNat / 2 ^ 24) = true
      ∧ ∀ r ∈ opcodeMasks, 0x01000001#32 &&& r.2 ≠ r.1 :=
  ⟨by decide, by decide, by simp [opcodeMasks]⟩

theorem witness_WrongPayloadLengthRefused :
    (Instr.lcdCreateChars 8 (List.replicate 64 0)).wf = true
      ∧ encode (.lcdCreateChars 8 (List.replicate 64 0)) = some (.host ⟨0x71000008#32, List.replicate 64 0⟩)
      ∧ (8#8 : Byte).toNat ≤ 8 ∧ (List.replicate 63 (0 : Byte)).length ≠ (List.replicate 64 (0 : Byte)).length
      ∧ Instr.clkStart.wf = true ∧ encode .clkStart = some (.host ⟨0x02000000#32, []⟩) ∧ [(0 : Byte)].length ≠ 0 := by
  decide +kernel

theorem witness_InternalOperationsAreNotIssuable : decodeHost ⟨0x02000000#32, []⟩ = .ok .clkStart := by decide

/-- A state in which an agent has the next step. -/
def turn (c : Choice) (s : State) : State := { s with sched := [c] }

theorem witness_StepRunsDecodedInstruction :
    (let s := { turn .host fresh with cmd := [⟨0x02000000#32, []⟩] }
     s.faulted = false ∧ decodeHost ⟨0x02000000#32, []⟩ = .ok .clkStart ∧ s.clk.cbActive = false ∧ s.kp.gkPhase = .idle
       ∧ s.sched = .host :: [] ∧ s.cmd = ⟨0x02000000#32, []⟩ :: [])
    ∧ (let s := { turn .cb inCallback with cbCmd := [⟨0x05000000#32, []⟩] }
       s.faulted = false ∧ decodeHost ⟨0x05000000#32, []⟩ = .ok .clkGetSeconds ∧ s.clk.cbActive = true
         ∧ s.sched = .cb :: [] ∧ s.cbCmd = ⟨0x05000000#32, []⟩ :: [])
    ∧ decodeHost ⟨0x4D000000#32, []⟩ = .error .illegalCommand
    ∧ (decodeBus (.nibble 3) = .ok .busWakeNibble ∧ (turn (.bus (.nibble 3)) fresh).sched = .bus (.nibble 3) :: []
         ∧ fresh.faulted = false) := by decide

/-- A scan in flight: the state after the first half of KPD_GET_KEY, with a flag, keys and a time. -/
def inFlight (flag : Bool) (keys : List (BitVec 2 × BitVec 2)) : State :=
  nextOr fresh (exec .kpdGetKey (scanner allLow 0 flag 0 keys 1000))

theorem witness_HostResumesScanOrWaits :
    ((turn .host (inFlight true [])).faulted = false ∧ (turn .host (inFlight true [])).clk.cbActive = false
      ∧ (turn .host (inFlight true [])).kp.gkPhase = .switched)
    ∧ ((turn .host inCallback).faulted = false ∧ (turn .host inCallback).clk.cbActive = true) := by decide

theorem witness_InterruptsTakenWhenEnabled :
    (clockAt 0 0 true 0).tickEnabled = true ∧ (clockAt 0 0 false 0).tickEnabled = false
      ∧ (turn .tick (clockAt 0 0 true 0)).faulted = false
      ∧ State.pinChangeEnabled { fresh with kp := { fresh.kp with pcPending := true } } = true
      ∧ (turn .pinChange fresh).faulted = false ∧ (turn .cbDone inCallback).faulted = false := by decide

/-- The press of (0, 2) on an armed scanner with all rows low changes a level and is latched (R46, R58). -/
theorem witness_EnvironmentSteps :
    (turn (.press (keysAt [(0, 2)])) (scanner allLow 0 false 0 [] 0)).faulted = false
      ∧ (nextOr fresh (step (turn (.press (keysAt [(0, 2)])) (scanner allLow 0 false 0 [] 0)))).kp.pcPending = true
      ∧ (turn (.passTime 5) fresh).sched = .passTime 5 :: [] := by decide

theorem witness_StuckOnceFaulted : State.faulted { inCallback with faults := ⟨true, false⟩ } = true := by decide

theorem witness_MarksAndTraceOnlyGrow :
    step (turn .tick (clockAt 0 0 true 0x123#24)) = .next (nextOr fresh (step (turn .tick (clockAt 0 0 true 0x123#24)))) := rfl

theorem witness_StartAndStopResults : fresh.clk.cbActive = false ∧ inCallback.clk.cbActive = true := by decide

theorem witness_ConfigureResetCallbackResults :
    fresh.clk.cbActive = false ∧ fresh.clk.configured = false ∧ (clockAt 0 0 true 0).clk.cbActive = false
      ∧ (clockAt 0 0 true 0).clk.configured = true := by decide

theorem witness_TickCountsThenCallsBack :
    (clockAt 0xFFFFFFFF#32 1 true 0x123#24).clk.running = true
      ∧ (clockAt 0xFFFFFFFF#32 1 true 0x123#24).clk.cbActive = false := by decide

theorem witness_CountingLaw :
    let s := { clockAt 0 0 true 0x123#24 with sched := (List.replicate 3 [Choice.tick, Choice.cbDone]).flatten ++ [Choice.host] }
    s.faulted = false ∧ s.clk.configured = true ∧ s.clk.running = true ∧ s.clk.cbActive = false
      ∧ s.clk.secondsElapsed = 0 ∧ s.clk.halfSecondPhase = 0
      ∧ s.sched = (List.replicate 3 [Choice.tick, Choice.cbDone]).flatten ++ [Choice.host] := by decide

theorem witness_StoppedClockStaysFrozen :
    (clockAt 7 0 true 0).faulted = false ∧ (clockAt 7 0 true 0).clk.cbActive = false
      ∧ exec .clkStop (clockAt 7 0 true 0) = .next (State.answered 0 (clockAt 7 0 false 0)) := ⟨rfl, rfl, rfl⟩

theorem witness_CallbackMayOnlyReadClock :
    inCallback.clk.cbActive = true ∧ decodeHost ⟨0x44000001#32, []⟩ = .error .illegalCommand
      ∧ isHostCommand .kpdStatus = true ∧ isClockRead .kpdStatus = false := by decide

theorem witness_CallbackFitsPreventsOverrun :
    (clockAt 0 0 true 0x123#24).faults.tickOverrun = false
      ∧ Along State.callbackFits 1 (turn .tick (clockAt 0 0 true 0x123#24))
      ∧ runSteps 1 (turn .tick (clockAt 0 0 true 0x123#24))
          = .next (nextOr fresh (runSteps 1 (turn .tick (clockAt 0 0 true 0x123#24)))) := by
  refine ⟨rfl, fun j hj t ht => ?_, rfl⟩
  obtain rfl : j = 0 := by omega
  cases ht
  rfl

theorem witness_HandlersGuardedAndCommute :
    (clockAt 0 0 false 0).clk.running = false ∧ inCallback.clk.running = true ∧ inCallback.clk.cbActive = true := by decide

theorem witness_KpdInitDrivesAllRowsLow :
    fresh.clk.cbActive = false ∧ fresh.kp.initialised = false
      ∧ (scanner allLow 0 false 0 [] 0).clk.cbActive = false ∧ (scanner allLow 0 false 0 [] 0).kp.initialised = true := by
  decide

/-- KPD-4 and KPD-7: 199 ms, also across the wrap of the time source. -/
theorem witness_GetKeyGateRejects :
    fresh.clk.cbActive = false ∧ fresh.kp.gkPhase = .idle ∧ fresh.kp.initialised = false
      ∧ ∀ s ∈ [scanner allLow 1 false 1000 [] 1199, scanner allLow 1 false 0xFFFFFF9C#32 [] 0x63],
          s.clk.cbActive = false ∧ s.kp.gkPhase = .idle ∧ s.kp.initialised = true
            ∧ (BitVec.ofNat 32 s.env.timeMs - s.kp.lastDebounceTimestamp).toNat < s.cfg.debounceMs := by decide

/-- KPD-5 and KPD-6: 200 ms, also across the wrap; the current row 3 wraps to 0. -/
theorem witness_GetKeySwitchesRow :
    ∀ s ∈ [scanner allLow 3 false 1000 [] 1200, scanner allLow 1 false 0xFFFFFF9C#32 [] 0x64],
      s.clk.cbActive = false ∧ s.kp.gkPhase = .idle ∧ s.kp.initialised = true
        ∧ s.cfg.debounceMs ≤ (BitVec.ofNat 32 s.env.timeMs - s.kp.lastDebounceTimestamp).toNat := by decide

/-- The flag clear, no column low, and the lowest low column at 0 and at 3. -/
theorem witness_GetKeySecondHalfResult :
    (∀ s ∈ [inFlight false [(1, 0)], inFlight true [], inFlight true [(1, 0), (1, 3)], inFlight true [(1, 3)]],
      s.clk.cbActive = false ∧ s.kp.gkPhase = .switched)
    ∧ (inFlight false [(1, 0)]).kp.keyDetectedFlag = false
    ∧ ((inFlight true []).kp.keyDetectedFlag = true ∧ ∀ c : BitVec 2, (inFlight true []).colLevel.getLsbD c.toNat = true)
    ∧ ((inFlight true [(1, 0), (1, 3)]).kp.keyDetectedFlag = true
        ∧ (inFlight true [(1, 0), (1, 3)]).colLevel.getLsbD (0 : BitVec 2).toNat = false)
    ∧ ((inFlight true [(1, 3)]).kp.keyDetectedFlag = true
        ∧ (inFlight true [(1, 3)]).colLevel.getLsbD (3 : BitVec 2).toNat = false
        ∧ ∀ d : BitVec 2, d.toNat < (3 : BitVec 2).toNat → (inFlight true [(1, 3)]).colLevel.getLsbD d.toNat = true) := by
  decide

/-- V-SRC-4: the key (1, 2) is returned at 1000, and the call comes at 1199. -/
theorem witness_DebounceLaw :
    let s := inFlight true [(1, 2)]
    let t := nextOr fresh (exec .kpdGetKey s)
    let u := { t with env := { t.env with timeMs := 1199 }, kp := { t.kp with keyDetectedFlag := true } }
    s.clk.cbActive = false ∧ s.kp.gkPhase = .switched ∧ s.kp.keyDetectedFlag = true
      ∧ s.colLevel.getLsbD (2 : BitVec 2).toNat = false ∧ exec .kpdGetKey s = .next t
      ∧ u.clk.cbActive = false ∧ u.kp.gkPhase = .idle ∧ u.kp.initialised = true ∧ u.cfg = t.cfg
      ∧ u.kp.lastDebounceTimestamp = t.kp.lastDebounceTimestamp
      ∧ (BitVec.ofNat 32 u.env.timeMs - s.kp.gkTime).toNat < u.cfg.debounceMs := by
  refine ⟨rfl, rfl, rfl, rfl, rfl, rfl, rfl, rfl, rfl, rfl, ?_⟩
  decide

/-- V-SRC-5: the calls at 1000, 1200, 1400 and 1600 from the rows 0, 1, 2 and 3. -/
theorem witness_RoundRobinVisitsEveryRow :
    let a := scanner allLow 0 false 0 [] 1000
    let b := scanner allLow 1 false 0 [] 1200
    let c := scanner allLow 2 false 0 [] 1400
    let d := scanner allLow 3 false 0 [] 1600
    (∀ x ∈ [a, b, c, d], x.clk.cbActive = false ∧ x.kp.gkPhase = .idle ∧ x.kp.initialised = true
      ∧ x.cfg.debounceMs ≤ (BitVec.ofNat 32 x.env.timeMs - x.kp.lastDebounceTimestamp).toNat)
    ∧ (∀ x ∈ [a, b, c, d], exec .kpdGetKey x = .next (nextOr fresh (exec .kpdGetKey x)))
    ∧ b.kp.currentRow = (nextOr fresh (exec .kpdGetKey a)).kp.currentRow
    ∧ c.kp.currentRow = (nextOr fresh (exec .kpdGetKey b)).kp.currentRow
    ∧ d.kp.currentRow = (nextOr fresh (exec .kpdGetKey c)).kp.currentRow := by
  refine ⟨by decide, ?_, by decide, by decide, by decide⟩
  intro x hx
  simp only [List.mem_cons, List.not_mem_nil, or_false] at hx
  rcases hx with rfl | rfl | rfl | rfl <;> rfl

/-- The first three calls of V-SRC-5, as a sequence of states: the third leaves only row 3 low. -/
def calls (k : Nat) : State :=
  if k = 0 then scanner allLow 0 false 0 [] 1000
  else if k = 1 then scanner ⟨.high, .low, .low, .low⟩ 1 false 0 [] 1200
  else scanner ⟨.high, .high, .low, .low⟩ 2 false 0 [] 1400

theorem witness_OneRowLowFromThirdSwitch :
    (fresh.clk.cbActive = false ∧ fresh.kp.initialised = false ∧ exec .kpdInit fresh = .next (nextOr fresh (exec .kpdInit fresh)))
    ∧ ((∀ k, k ≤ 2 → (calls k).clk.cbActive = false ∧ (calls k).kp.gkPhase = .idle ∧ (calls k).kp.initialised = true
          ∧ (calls k).cfg.debounceMs ≤ (BitVec.ofNat 32 (calls k).env.timeMs - (calls k).kp.lastDebounceTimestamp).toNat)
        ∧ (∀ k, k ≤ 2 → exec .kpdGetKey (calls k) = .next (nextOr fresh (exec .kpdGetKey (calls k))))
        ∧ (∀ k, k < 2 → (calls (k + 1)).kp.currentRow = (nextOr fresh (exec .kpdGetKey (calls k))).kp.currentRow
            ∧ (calls (k + 1)).pin.row = (nextOr fresh (exec .kpdGetKey (calls k))).pin.row)
        ∧ (calls 0).pin.row = ⟨.low, .low, .low, .low⟩)
    ∧ (let s := scanner ⟨.high, .high, .high, .low⟩ 3 false 0 [] 1600
       s.clk.cbActive = false ∧ s.kp.gkPhase = .idle ∧ s.kp.initialised = true ∧ s.pin.onlyRowLow s.kp.currentRow = true
         ∧ s.cfg.debounceMs ≤ (BitVec.ofNat 32 s.env.timeMs - s.kp.lastDebounceTimestamp).toNat
         ∧ exec .kpdGetKey s = .next (nextOr fresh (exec .kpdGetKey s))) := by
  refine ⟨⟨rfl, rfl, rfl⟩, ⟨by decide, ?_, by decide, rfl⟩, rfl, rfl, rfl, rfl, by decide, rfl⟩
  intro k hk
  obtain rfl | rfl | rfl : k = 0 ∨ k = 1 ∨ k = 2 := by omega
  all_goals rfl

/-- The scan of P5 at its row 7: only row 0 low, the key (1, 2) held. -/
def heldScan : State :=
  { scanner ⟨.low, .high, .high, .high⟩ 0 false 0 [(1, 2)] 1800 with
    sched := [.host, .pinChange, .host], cmd := [⟨0x21000000#32, []⟩] }

theorem witness_HeldKeyFoundWhenItsRowIsActivated :
    heldScan.faulted = false ∧ heldScan.clk.cbActive = false ∧ heldScan.kp.initialised = true
      ∧ heldScan.kp.gkPhase = .idle ∧ heldScan.pin.onlyRowLow heldScan.kp.currentRow = true
      ∧ heldScan.kp.currentRow + 1 = 1
      ∧ (∀ x y : BitVec 2, Grid.at heldScan.env.pressed x y = true ↔ x = 1 ∧ y = 2)
      ∧ heldScan.cfg.debounceMs ≤ (BitVec.ofNat 32 heldScan.env.timeMs - heldScan.kp.lastDebounceTimestamp).toNat
      ∧ heldScan.sched = .host :: .pinChange :: .host :: [] ∧ heldScan.cmd = ⟨0x21000000#32, []⟩ :: [] := by decide

/-- The run of the statement above, from the vector: the answer is '6'. -/
theorem test_held_key : (nextOr fresh (runSteps 3 heldScan)).replies = [.result .mainFlow 0x36#32] := by decide

theorem witness_KpdStatusResult :
    (scanner allLow 3 true 0 [] 0).clk.cbActive = false ∧ inCallback.clk.cbActive = true := by decide

theorem witness_LcdInitResult :
    fresh.clk.cbActive = false ∧ fresh.lcd.initialised = false ∧ ready.clk.cbActive = false ∧ ready.lcd.initialised = true := by
  decide

theorem witness_LcdCommandsRefusedBeforeInit :
    fresh.clk.cbActive = false ∧ fresh.lcd.initialised = false ∧ commandOp (.lcdCommand 0) = some 0x41
      ∧ commandOp (.lcdWriteCustomChar 8) = some 0x72 ∧ Instr.lcdWriteCustomChar 8 ≠ .lcdIsScrolling
      ∧ Instr.lcdWriteCustomChar 8 ≠ .lcdGetScrollPosition := by decide

theorem witness_RawByteResults : ready.clk.cbActive = false ∧ ready.lcd.initialised = true := by decide

theorem witness_PrintSendsEachByte :
    ready.clk.cbActive = false ∧ ready.lcd.initialised = true
      ∧ (List.replicate 32 (0x41#8 : Byte)).length ≤ ready.cfg.maxText
      ∧ ready.cfg.maxText < (List.replicate 33 (0x41#8 : Byte)).length := by decide

theorem witness_ClearAndHomeResults : ready.clk.cbActive = false ∧ ready.lcd.initialised = true := by decide

theorem witness_SetCursorResult :
    ready.clk.cbActive = false ∧ ready.lcd.initialised = true ∧ (15#8 : Byte).toNat < 16 ∧ (3#8 : Byte).toNat < 4
      ∧ 16 ≤ (16#8 : Byte).toNat ∧ 4 ≤ (4#8 : Byte).toNat := by decide

theorem witness_ToggleResults :
    ready.clk.cbActive = false ∧ ready.lcd.initialised = true
      ∧ (Instr.lcdBlinkOff, { ready.lcd.dispCtl with b := false }) ∈
          [(Instr.lcdDisplayOn, { ready.lcd.dispCtl with d := true }), (.lcdDisplayOff, { ready.lcd.dispCtl with d := false }),
           (.lcdCursorOn, { ready.lcd.dispCtl with c := true }), (.lcdCursorOff, { ready.lcd.dispCtl with c := false }),
           (.lcdBlinkOn, { ready.lcd.dispCtl with b := true }), (.lcdBlinkOff, { ready.lcd.dispCtl with b := false })] := by
  decide

/-- Row 3 with texts of 16, 17, 64 and 65 bytes, and row 4. -/
theorem witness_StartScrollResult :
    ready.clk.cbActive = false ∧ ready.lcd.initialised = true ∧ (3#8 : Byte).toNat < 4 ∧ 4 ≤ (4#8 : Byte).toNat
      ∧ (List.replicate 16 (0x41#8 : Byte)).length ≤ 16 ∧ 16 < textT.length ∧ textT.length ≤ ready.cfg.maxScrollLen
      ∧ 16 < (List.replicate 64 (0x41#8 : Byte)).length ∧ (List.replicate 64 (0x41#8 : Byte)).length ≤ ready.cfg.maxScrollLen
      ∧ ready.cfg.maxScrollLen < (List.replicate 65 (0x41#8 : Byte)).length := by decide

theorem witness_UpdateScrollRendersWindow :
    (∀ s ∈ [scrolling 0 3 .right, scrolling 16 0 .left], s.clk.cbActive = false ∧ s.lcd.initialised = true
      ∧ s.lcd.scrollMode = .scrolling ∧ 0 < s.lcd.scrollText.length)
    ∧ ready.clk.cbActive = false ∧ ready.lcd.initialised = true ∧ ready.lcd.scrollMode ≠ .scrolling := by decide

theorem witness_ScrollPeriodIsTextLength :
    ∀ s ∈ [scrolling 0 0 .left, scrolling 16 1 .right], s.clk.cbActive = false ∧ s.lcd.initialised = true
      ∧ s.lcd.scrollMode = .scrolling ∧ s.lcd.scrollPosition < s.lcd.scrollText.length := by decide

theorem witness_ScrollStateCommandResults :
    (scrolling 5 1 .right).clk.cbActive = false ∧ (scrolling 5 1 .right).lcd.initialised = true
      ∧ fresh.clk.cbActive = false := by decide

theorem witness_CreateCharResult :
    ready.clk.cbActive = false ∧ ready.lcd.initialised = true ∧ glyphH.length = 8 ∧ (7#8 : Byte).toNat < 8
      ∧ 8 ≤ (8#8 : Byte).toNat := by decide

theorem witness_CreateCharsResult :
    ready.clk.cbActive = false ∧ ready.lcd.initialised = true
      ∧ (8#8 : Byte).toNat ≤ 8 ∧ (List.replicate 64 (0x1F#8 : Byte)).length = 8 * (8#8 : Byte).toNat
      ∧ (0#8 : Byte).toNat ≤ 8 ∧ ([] : List Byte).length = 8 * (0#8 : Byte).toNat
      ∧ 8 < (9#8 : Byte).toNat := by decide

theorem witness_WriteCustomCharResult :
    ready.clk.cbActive = false ∧ ready.lcd.initialised = true ∧ (7#8 : Byte).toNat < 8 ∧ 8 ≤ (8#8 : Byte).toNat := by decide

theorem witness_BusTransfers :
    (Instr.busClearDisplay, false, 0x01) ∈ [(Instr.busClearDisplay, false, 0x01), (.busReturnHome true, false, 0x02 + true.toNat)]
      ∧ (Instr.bus4BitNibble, 0x2#4) ∈ [(Instr.busWakeNibble, 0x3#4), (.bus4BitNibble, 0x2#4)] := by decide

/-- The display after LCD_INIT: the controller is known. -/
def started : State := nextOr fresh (exec .lcdInit fresh)

theorem witness_CommandsKeepBusWellTimed :
    isHostCommand .lcdClear = true ∧ isRawLong .lcdClear = false ∧ started.cfg.valid = true
      ∧ lcdQuiet started.cfg started.trace = true
      ∧ (match exec .lcdClear started with | .next _ => true | _ => false) = true := by decide +kernel

theorem witness_RawClearBreaksWellTimed :
    let t := nextOr fresh (exec (.lcdCommand 0x03#8) started)
    let u := nextOr fresh (exec (.lcdSetCursor 0 1) t)
    started.clk.cbActive = false ∧ started.lcd.initialised = true ∧ started.cfg.tExecUs < 1520
      ∧ lcdQuiet started.cfg started.trace = true ∧ isRawLong (.lcdCommand 0x03#8) = true
      ∧ exec (.lcdCommand 0x03#8) started = .next t ∧ commandOp (.lcdSetCursor 0 1) = some 0x46 ∧ 0x40 ≤ 0x46
      ∧ exec (.lcdSetCursor 0 1) t = .next u ∧ u.trace.length ≠ t.trace.length :=
  ⟨rfl, rfl, by decide, by decide +kernel, rfl, rfl, by decide, by decide, rfl, by decide +kernel⟩

/-- R296, I10: a raw clear followed by a data byte leaves nothing known of the controller, and so does a raw entry-mode
byte other than 0x06, even after a clear (I9). -/
theorem test_controller_unknown :
    (let u := nextOr fresh (exec (.lcdWriteChar 0x41#8) (nextOr fresh (exec (.lcdCommand 0x01#8) started)))
     lcdController u.cfg u.trace = LcdController.strayed)
    ∧ (let u := nextOr fresh (exec (.lcdWriteChar 0x41#8) (nextOr fresh (exec .lcdClear (nextOr fresh
          (exec (.lcdCommand 0x04#8) started)))))
       lcdController u.cfg u.trace = LcdController.strayed) := by decide +kernel

/-- R291, I7: before the wake sequence a clear and a data byte on the bus, the model's own input, tell nothing. -/
theorem test_controller_before_init :
    (let t := nextOr fresh (exec .busClearDisplay fresh)
     lcdController t.cfg t.trace = LcdController.strayed
       ∧ (busMonitor t.cfg t.trace).transfers = [.byte false 0x01#8]) := by decide +kernel

theorem witness_InitLeavesControllerCleared :
    fresh.clk.cbActive = false ∧ fresh.lcd.initialised = false ∧ lcdQuiet fresh.cfg fresh.trace = true
      ∧ exec .lcdInit fresh = .next started := ⟨rfl, rfl, rfl, rfl⟩

/-- V-LCD-1 read back from the bus: the controller after LCD_INIT. -/
theorem test_controller_after_init :
    lcdController started.cfg started.trace = ⟨some (.ddram 0), true, true, [], [], 5⟩ := by decide +kernel

theorem witness_GlyphRoundTrip :
    let t := nextOr fresh (exec (.lcdCreateChar 0 glyphH) started)
    started.clk.cbActive = false ∧ started.lcd.initialised = true ∧ lcdQuiet started.cfg started.trace = true
      ∧ (lcdController started.cfg started.trace).increments = true ∧ glyphH.length = 8
      ∧ exec (.lcdCreateChar 0 glyphH) started = .next t
      ∧ exec (.lcdWriteCustomChar 0) t = .next (nextOr fresh (exec (.lcdWriteCustomChar 0) t))
      ∧ (15#8 : Byte).toNat < 16 ∧ (3#8 : Byte).toNat < 4
      ∧ exec (.lcdSetCursor 15 3) t = .next (nextOr fresh (exec (.lcdSetCursor 15 3) t)) :=
  ⟨rfl, rfl, by decide +kernel, by decide +kernel, rfl, rfl, rfl, by decide, by decide, rfl⟩

theorem witness_WindowStandsInScrollRow :
    let s := nextOr fresh (exec (.lcdStartScroll 3 .left textT) started)
    s.clk.cbActive = false ∧ s.lcd.initialised = true ∧ s.lcd.scrollMode = .scrolling ∧ 0 < s.lcd.scrollText.length
      ∧ lcdQuiet s.cfg s.trace = true ∧ (lcdController s.cfg s.trace).increments = true
      ∧ exec .lcdUpdateScroll s = .next (nextOr fresh (exec .lcdUpdateScroll s)) :=
  ⟨rfl, rfl, rfl, by decide, by decide +kernel, by decide +kernel, rfl⟩

theorem witness_SubBlocksAreIndependent :
    commandOp .clkStart = some 0x02 ∧ commandOp .kpdInit = some 0x20 ∧ commandOp (.lcdWriteCustomChar 0) = some 0x72
      ∧ exec .kpdInit fresh = .next (nextOr fresh (exec .kpdInit fresh)) := ⟨rfl, rfl, rfl, rfl⟩

theorem witness_FieldsHaveTheirWriters :
    exec .clkStart fresh = .next (State.answered 0 { fresh with clk := { fresh.clk with running := true } })
      ∧ Instr.clkStart ≠ .evTick ∧ Instr.clkStart ≠ .kpdGetKey ∧ Instr.clkStart ≠ .lcdInit := ⟨rfl, by decide, by decide, by decide⟩

theorem witness_ConstructionChecksConfig :
    cfgT.valid = true ∧ Config.valid { cfgT with maxScrollLen := 16 } = false
      ∧ Config.valid { cfgT with keymap := Four.set cfgT.keymap 0 ⟨0x00#8, 0x32#8, 0x33#8, 0x41#8⟩ } = false := by decide

/-- The invariant at a state with a command to issue, and the step from it. -/
theorem witness_StepKeepsInvariant :
    State.Inv { turn .host fresh with cmd := [⟨0x20000000#32, []⟩] }
      ∧ step { turn .host fresh with cmd := [⟨0x20000000#32, []⟩] }
          = .next (nextOr fresh (step { turn .host fresh with cmd := [⟨0x20000000#32, []⟩] })) :=
  ⟨by constructor <;> decide, rfl⟩

end Sys2Proof.Tests
end

/-! PROOFS. The row of KPD_GET_KEY: what a gate-passing call leaves on the row pins (R165), and how many rows are low
after so many calls (R49). -/

namespace Sys2Proof.Proofs

open Sys2Proof Sys2Proof.Machine

/-! Calls of the KeyScanner. -/

/-- KPD_GET_KEY is called in the main flow of an initialised KeyScanner, with no call in flight and the debounce gate open
to it (R160, R162, R166). -/
structure GatePasses (s : State) : Prop where
  mainFlow : s.clk.cbActive = false
  noCall : s.kp.gkPhase = .idle
  initialised : s.kp.initialised = true
  gateOpen : s.cfg.debounceMs ≤ (s.now - s.kp.lastDebounceTimestamp).toNat

/-- t has the rows of s switched once: the old row high, the next one current and low (R165). -/
structure RowSwitched (s t : State) : Prop where
  current : t.kp.currentRow = s.kp.currentRow + 1
  pins : t.pin.row = Four.set (Four.set s.pin.row s.kp.currentRow .high) (s.kp.currentRow + 1) .low

theorem exec_kpdInit (s : State) : exec .kpdInit s = execKpdInit s := rfl

theorem exec_kpdGetKey (s : State) : exec .kpdGetKey s = execKpdGetKey s := rfl

theorem kpdInit_rows_low {s t : State} (hc : s.clk.cbActive = false) (hi : s.kp.initialised = false)
    (h : exec .kpdInit s = .next t) : t.pin.row = ⟨.low, .low, .low, .low⟩ := by
  rw [exec_kpdInit, execKpdInit, mainFlowOnly_main hc, hi, onceOnly_first] at h
  cases h
  exact driveRowsActive_pin_row s

theorem kpdGetKey_firstHalf {s : State} (h : GatePasses s) : exec .kpdGetKey s = .next (getKeyFirstHalf s) := by
  rw [exec_kpdGetKey, execKpdGetKey, mainFlowOnly_main h.mainFlow]
  simp only [h.noCall, h.initialised, if_true]

theorem kpdGetKey_rowSwitched {s t : State} (h : GatePasses s) (he : exec .kpdGetKey s = .next t) : RowSwitched s t := by
  rw [kpdGetKey_firstHalf h, getKeyFirstHalf_passed h.gateOpen] at he
  cases he
  exact ⟨switchRow_kp_currentRow _, switchRow_pin_row _⟩

theorem RowSwitched.old_high {s t : State} (h : RowSwitched s t) : Four.get t.pin.row s.kp.currentRow = .high := by
  rw [h.pins, four_get_set_other _ _ _ _ (row_ne_next _), four_get_set_same]

theorem RowSwitched.new_low {s t : State} (h : RowSwitched s t) : Four.get t.pin.row t.kp.currentRow = .low := by
  rw [h.pins, h.current, four_get_set_same]

theorem RowSwitched.other {s t : State} (h : RowSwitched s t) {r : BitVec 2} (ho : r ≠ s.kp.currentRow)
    (hn : r ≠ t.kp.currentRow) : Four.get t.pin.row r = Four.get s.pin.row r := by
  rw [h.current] at hn
  rw [h.pins, four_get_set_other _ _ _ _ hn, four_get_set_other _ _ _ _ ho]

/-! Which rows are low after m switches. -/

/-- The current row is low, and of the others those that stand more than m places behind it, counted modulo 4: what m
switches leave of four low rows. From m = 3 on the current row alone is low. -/
def LowAfter (m : Nat) (s : State) : Prop :=
  ∀ r : BitVec 2, Four.get s.pin.row r = .low ↔ r = s.kp.currentRow ∨ m < (s.kp.currentRow - r).toNat

/-- Every row but the new current one falls one place further behind. -/
theorem places_behind_succ {c r : BitVec 2} (h : r ≠ c + 1) : (c + 1 - r).toNat = (c - r).toNat + 1 := by
  revert c r; decide

theorem places_behind_pos {c r : BitVec 2} (h : r ≠ c) : 0 < (c - r).toNat := by
  revert c r; decide

theorem lowAfter_zero {s : State} (h : s.pin.row = ⟨.low, .low, .low, .low⟩) : LowAfter 0 s := by
  intro r
  have hlow : Four.get s.pin.row r = .low := by simp [h, Four.get]
  have hr : r = s.kp.currentRow ∨ 0 < (s.kp.currentRow - r).toNat := or_iff_not_imp_left.mpr places_behind_pos
  exact iff_of_true hlow hr

/-- The rows low after m switches depend on the pins and currentRow alone, which no agent writes between calls. -/
theorem LowAfter.congr {m : Nat} {s t : State} (h : LowAfter m s) (hc : t.kp.currentRow = s.kp.currentRow)
    (hr : t.pin.row = s.pin.row) : LowAfter m t := by
  unfold LowAfter
  rw [hc, hr]
  exact h

/-- One more switch raises the old row and leaves those further behind as they were. -/
theorem LowAfter.switch {m : Nat} {s t : State} (h : LowAfter m s) (hs : RowSwitched s t) : LowAfter (m + 1) t := by
  intro r
  by_cases hn : r = t.kp.currentRow
  · subst hn
    simp [hs.new_low]
  have hbehind : (t.kp.currentRow - r).toNat = (s.kp.currentRow - r).toNat + 1 := by
    rw [hs.current] at hn ⊢
    exact places_behind_succ hn
  by_cases ho : r = s.kp.currentRow
  · subst ho
    simp [hs.old_high, hn, hbehind]
  · rw [hs.other ho hn, h r, hbehind]
    simp [ho, hn]

theorem forall_index {p : BitVec 2 → Prop} : (∀ r, p r) ↔ p 0 ∧ p 1 ∧ p 2 ∧ p 3 := by
  refine ⟨fun h => ⟨h 0, h 1, h 2, h 3⟩, fun ⟨h0, h1, h2, h3⟩ r => ?_⟩
  rcases index_cases r with rfl | rfl | rfl | rfl <;> assumption

/-- The model's Boolean check of R49, read as a statement about every row. -/
theorem pins_onlyRowLow_iff (f : Pins) (c : BitVec 2) :
    f.onlyRowLow c = true ↔ ∀ r : BitVec 2, Four.get f.row r = .low ↔ r = c := by
  rw [forall_index]
  rcases index_cases c with rfl | rfl | rfl | rfl <;> simp [Pins.onlyRowLow, Four.get, and_assoc]

/-- The row ahead of the current one stands three places behind it, so it is the last to be raised (R49). -/
theorem LowAfter.onlyRowLow_iff {m : Nat} {s : State} (h : LowAfter m s) :
    s.pin.onlyRowLow s.kp.currentRow = true ↔ 3 ≤ m := by
  rw [pins_onlyRowLow_iff]
  constructor
  · intro hall
    by_contra hm
    have hthree : (s.kp.currentRow - (s.kp.currentRow + 1)).toNat = 3 := by
      generalize s.kp.currentRow = c
      revert c; decide
    have hlow : Four.get s.pin.row (s.kp.currentRow + 1) = .low := (h _).mpr (.inr (by omega))
    exact row_ne_next _ ((hall _).mp hlow).symm
  · intro hm r
    have hbehind : ¬ m < (s.kp.currentRow - r).toNat := by omega
    rw [h r, or_iff_left hbehind]

theorem lowAfter_of_onlyRowLow {s : State} (h : s.pin.onlyRowLow s.kp.currentRow = true) : LowAfter 3 s := by
  intro r
  have hbehind : ¬ 3 < (s.kp.currentRow - r).toNat := by omega
  rw [(pins_onlyRowLow_iff _ _).mp h r, or_iff_left hbehind]

/-- n + 1 calls in sequence, each from the row pins and the currentRow that the one before left, switch n + 1 times. -/
theorem lowAfter_calls {x y : Nat → State} {n : Nat} (hs : ∀ k, k ≤ n → RowSwitched (x k) (y k))
    (hl : ∀ k, k < n → (x (k + 1)).kp.currentRow = (y k).kp.currentRow ∧ (x (k + 1)).pin.row = (y k).pin.row)
    (h0 : (x 0).pin.row = ⟨.low, .low, .low, .low⟩) : LowAfter (n + 1) (y n) := by
  induction n with
  | zero => exact (lowAfter_zero h0).switch (hs 0 le_rfl)
  | succ n ih =>
    have before : LowAfter (n + 1) (y n) := ih (fun k hk => hs k (by omega)) (fun k hk => hl k (by omega))
    obtain ⟨hc, hr⟩ := hl n (by omega)
    exact (before.congr hc hr).switch (hs (n + 1) le_rfl)

/-- Settles O30: the rows low are counted by LowAfter, by induction on the number of calls. -/
theorem oneRowLowFromThirdSwitch : Obligations.OneRowLowFromThirdSwitch := by
  unfold Obligations.OneRowLowFromThirdSwitch
  refine ⟨fun s t => kpdInit_rows_low, ?_, ?_⟩
  · intro n x y hcalls hlinks h0
    have hs : ∀ k, k ≤ n → RowSwitched (x k) (y k) := by
      intro k hk
      obtain ⟨hc, hp, hi, hg, he⟩ := hcalls k hk
      exact kpdGetKey_rowSwitched ⟨hc, hp, hi, hg⟩ he
    have hlast : RowSwitched (x n) (y n) := hs n le_rfl
    have hrow : (y n).kp.currentRow = BitVec.ofNat 2 (((x n).kp.currentRow.toNat + 1) % 4) :=
      hlast.current.trans (row_next _)
    have hthird : (y n).pin.onlyRowLow (y n).kp.currentRow = true ↔ 2 ≤ n :=
      (lowAfter_calls hs hlinks h0).onlyRowLow_iff.trans (by omega)
    exact ⟨hrow, hlast.old_high, hlast.new_low, hthird⟩
  · intro s t hc hp hi hg honly he
    have hs : RowSwitched s t := kpdGetKey_rowSwitched ⟨hc, hp, hi, hg⟩ he
    exact ((lowAfter_of_onlyRowLow honly).switch hs).onlyRowLow_iff.mpr (by decide)

end Sys2Proof.Proofs

/-! PROOFS. Command words of the host: a word cut into its fields, the reserved bits of a format as the mask of its row in
spec/opcode_table.json (R92, R94, R96), and each row of the opcode map read back by the encoder (R95, R97). -/

namespace Sys2Proof.Proofs

open Sys2Proof Sys2Proof.Machine

/-! A word from its fields (R90). -/

theorem packWord_fields (w : Word) : packWord (opField w) (aField w) (bField w) (cField w) = w := by
  apply BitVec.eq_of_toNat_eq
  rw [packWord_toNat, opField_toNat, aField_toNat, bField_toNat, cField_toNat]
  omega

theorem h24_fields (w : Word) : opField w ++ hField w = w := by
  apply BitVec.eq_of_toNat_eq
  rw [h24_toNat, opField_toNat, hField_toNat]
  omega

theorem l16_fields (w : Word) : opField w ++ aField w ++ lField w = w := by
  apply BitVec.eq_of_toNat_eq
  rw [l16_toNat, opField_toNat, aField_toNat, lField_toNat]
  omega

theorem packWord_and (a b c d a' b' c' d' : Byte) :
    packWord a b c d &&& packWord a' b' c' d' = packWord (a &&& a') (b &&& b') (c &&& c') (d &&& d') := by
  change (a ++ b ++ c ++ d : BitVec (8 + 8 + 8 + 8)) &&& (a' ++ b' ++ c' ++ d') = _
  rw [BitVec.and_append, BitVec.and_append, BitVec.and_append]
  rfl

theorem packWord_inj {a b c d a' b' c' d' : Byte} :
    packWord a b c d = packWord a' b' c' d' ↔ a = a' ∧ b = b' ∧ c = c' ∧ d = d' := by
  constructor
  · intro h
    exact ⟨by simpa using congrArg opField h, by simpa using congrArg aField h, by simpa using congrArg bField h,
      by simpa using congrArg cField h⟩
  · rintro ⟨rfl, rfl, rfl, rfl⟩
    rfl

/-! An operand byte of one bit (formats SCR and D1). -/

theorem bitOfDirection_directionOfBit (d : Bool) : bitOfDirection (directionOfBit d) = d := by cases d <;> rfl

/-- With the seven reserved bits clear only the bit d is left. -/
theorem dByte_of_reserved {b : Byte} (h : b.extractLsb' 1 7 = 0) : dByte (b.getLsbD 0) = b := by
  revert b; decide

theorem and_reserved_eq_zero_iff (b : Byte) : b &&& 0xFE#8 = 0#8 ↔ b.extractLsb' 1 7 = 0#7 := by
  revert b; decide

/-! Reserved bits as the masks of the opcode table (R92, R96). -/

/-- The bits that a format fixes: OP and the reserved bits. -/
def formatMask (f : Format) : Word :=
  match f with
  | .n => packWord 0xFF 0xFF 0xFF 0xFF
  | .b8 => packWord 0xFF 0xFF 0xFF 0
  | .cr => packWord 0xFF 0xFF 0 0
  | .h24 => packWord 0xFF 0 0 0
  | .l16 => packWord 0xFF 0xFF 0 0
  | .scr => packWord 0xFF 0 0xFE 0
  | .d1 => packWord 0xFF 0xFF 0xFF 0xFE
  | .g => packWord 0xFF 0xFF 0xFF 0

/-- The table's matches and masks are those of the model's rows. -/
theorem opcodeMasks_eq :
    opcodeMasks = hostRows.map fun r => (packWord (BitVec.ofNat 8 r.1) 0 0 0, formatMask r.2.format) := rfl

/-- The reserved bits are clear exactly when a word has nothing but its OP under the mask of the format. -/
theorem reservedClear_iff_masked (f : Format) (w : Word) :
    reservedClear f w = true ↔ w &&& formatMask f = packWord (opField w) 0 0 0 := by
  have hff (b : Byte) : b &&& 0xFF#8 = b := BitVec.and_allOnes
  have hmask (a b c d : Byte) : w &&& packWord a b c d
      = packWord (opField w &&& a) (aField w &&& b) (bField w &&& c) (cField w &&& d) := by
    rw [← packWord_and, packWord_fields]
  cases f <;> simp [formatMask, reservedClear, hmask, packWord_inj, hff, and_assoc, and_reserved_eq_zero_iff]

/-! Refusals (R96, R281). -/

/-- A command that does not decode is recorded and refused, and nothing else changes. -/
theorem issue_of_error {c : Command} {r : Reason} (h : decodeHost c = .error r) (s : State) :
    issue c s = .next { s with
      refused := true
      issued := s.issued ++ [(s.context, c)]
      replies := s.replies ++ [.refused s.context r] } := by
  simp only [issue, h]
  rfl

theorem unassignedOp_of_hostRows : ∀ r ∈ hostRows, unassignedOp r.1 = false := by decide

/-- No row of the opcode map has an OP that R96 lists as unassigned. -/
theorem hostRow_of_unassigned {op : Nat} (h : unassignedOp op = true) : hostRow op = none := by
  cases hrow : hostRow op with
  | none => rfl
  | some row =>
    have hassigned : unassignedOp op = false := unassignedOp_of_hostRows _ (hostRow_mem hrow)
    rw [h] at hassigned
    cases hassigned

/-- A word that matches no row of the opcode table has a reserved bit set in any row of its OP. -/
theorem reservedClear_of_no_match {w : Word} {row : HostRow} (hrow : hostRow (opField w).toNat = some row)
    (h : ∀ r ∈ opcodeMasks, w &&& r.2 ≠ r.1) : reservedClear row.format w = false := by
  have hmem : (packWord (opField w) 0 0 0, formatMask row.format) ∈ opcodeMasks := by
    rw [opcodeMasks_eq]
    exact List.mem_map.mpr ⟨_, hostRow_mem hrow, by simp⟩
  rw [← Bool.not_eq_true, reservedClear_iff_masked]
  exact h _ hmem

theorem decodeHost_illegal {w : Word}
    (h : ∀ row, hostRow (opField w).toNat = some row → reservedClear row.format w = false) (p : List Byte) :
    decodeHost ⟨w, p⟩ = .error .illegalCommand := by
  rcases decodeHost_cases w p with ⟨_, he⟩ | ⟨row, hrow, ⟨_, he⟩ | ⟨hr, _⟩ | ⟨hr, _⟩⟩
  · exact he
  · exact he
  · exact absurd hr (by simp [h row hrow])
  · exact absurd hr (by simp [h row hrow])

theorem decodeHost_of_unassigned {w : Word} (h : unassignedOp (w.toNat / 2 ^ 24) = true) (p : List Byte) :
    decodeHost ⟨w, p⟩ = .error .illegalCommand := by
  have hnone : hostRow (opField w).toNat = none := by rw [opField_toNat, hostRow_of_unassigned h]
  exact decodeHost_illegal (by simp [hnone]) p

theorem decodeHost_of_no_match {w : Word} (h : ∀ r ∈ opcodeMasks, w &&& r.2 ≠ r.1) (p : List Byte) :
    decodeHost ⟨w, p⟩ = .error .illegalCommand :=
  decodeHost_illegal (fun _ hrow => reservedClear_of_no_match hrow h) p

/-- Settles O4: either way the word decodes to IllegalCommand, and issue refuses it. -/
theorem illegalCommandChangesNothing : Obligations.IllegalCommandChangesNothing := by
  unfold Obligations.IllegalCommandChangesNothing
  intro w p s h
  apply issue_of_error
  rcases h with hop | hmasks
  · exact decodeHost_of_unassigned hop p
  · exact decodeHost_of_no_match hmasks p

/-! Each row of the opcode map is read back by the encoder. -/

/-- Whatever a row builds from a command it accepts encodes as that command. -/
def RowEncodes (op : Byte) (row : HostRow) : Prop :=
  ∀ (w : Word) (p : List Byte), opField w = op → reservedClear row.format w = true → (row.length w).fits p = true →
    encode (row.build w p) = some (.host ⟨w, p⟩)

theorem fits_exactly {n : Nat} {p : List Byte} : (PayloadLength.exactly n).fits p = true ↔ p.length = n := beq_iff_eq

/-- A row whose command carries no payload needs its word rebuilt only. -/
theorem rowEncodes_bare {op : Byte} {f : Format} {build : Word → Instr}
    (h : ∀ w, opField w = op → reservedClear f w = true → encode (build w) = some (.host ⟨w, []⟩)) :
    RowEncodes op (bareRow f build) := by
  intro w p hop hr hl
  obtain rfl : p = [] := List.length_eq_zero_iff.mp (fits_exactly.mp hl)
  exact h w hop hr

theorem rowEncodes_formatN {op : Byte} {i : Instr} (h : encode i = encodeN op) :
    RowEncodes op (bareRow .n fun _ => i) :=
  rowEncodes_bare fun w hop hr => by
    obtain ⟨⟨ha, hb⟩, hc⟩ : (aField w = 0 ∧ bField w = 0) ∧ cField w = 0 := by simpa [reservedClear] using hr
    rw [h, encodeN, ← hop]
    conv_rhs => rw [← packWord_fields w, ha, hb, hc]

/-- The word of formats B8 and G, which leave C to the operand. -/
theorem packWord_of_operand {w : Word} (hr : reservedClear .b8 w = true) : packWord (opField w) 0 0 (cField w) = w := by
  obtain ⟨ha, hb⟩ : aField w = 0 ∧ bField w = 0 := by simpa [reservedClear] using hr
  conv_rhs => rw [← packWord_fields w, ha, hb]

theorem rowEncodes_formatB8 {op : Byte} {k : Byte → Instr} (h : ∀ b, encode (k b) = encodeC op b) :
    RowEncodes op (bareRow .b8 fun w => k (cField w)) :=
  rowEncodes_bare fun w hop hr => by rw [h, encodeC, ← hop, packWord_of_operand hr]

theorem rowEncodes_formatG {op : Byte} {len : Word → PayloadLength} {k : Byte → List Byte → Instr}
    (h : ∀ b p, encode (k b p) = some (.host ⟨packWord op 0 0 b, p⟩)) :
    RowEncodes op ⟨.g, len, fun w p => k (cField w) p⟩ := by
  intro w p hop hr _
  rw [h, ← hop, packWord_of_operand hr]

theorem rowEncodes_clkSetTickCallback :
    RowEncodes 0x07#8 (bareRow .h24 fun w => .clkSetTickCallback (hField w)) :=
  rowEncodes_bare fun w hop _ => by rw [encode, ← hop, h24_fields]

theorem rowEncodes_lcdSetCursor :
    RowEncodes 0x46#8 (bareRow .cr fun w => .lcdSetCursor (bField w) (cField w)) :=
  rowEncodes_bare fun w hop hr => by
    have ha : aField w = 0 := by simpa [reservedClear] using hr
    rw [encode, ← hop, ← ha, packWord_fields]

theorem rowEncodes_lcdSetScrollDirection :
    RowEncodes 0x63#8 (bareRow .d1 fun w => .lcdSetScrollDirection (directionOfBit ((cField w).getLsbD 0))) :=
  rowEncodes_bare fun w hop hr => by
    obtain ⟨hab, hc⟩ : reservedClear .b8 w = true ∧ (cField w).extractLsb' 1 7 = 0 := by
      simpa [reservedClear] using hr
    rw [encode, encodeC, bitOfDirection_directionOfBit, dByte_of_reserved hc, ← hop, packWord_of_operand hab]

theorem rowEncodes_lcdPrint :
    RowEncodes 0x43#8 ⟨.l16, fun w => .exactly (lField w).toNat, fun _ p => .lcdPrint p⟩ := by
  intro w p hop hr hl
  have ha : aField w = 0 := by simpa [reservedClear] using hr
  have hlen : BitVec.ofNat 16 p.length = lField w := by simp [fits_exactly.mp hl]
  have hw : 0x43#8 ++ 0x00#8 ++ lField w = w := by
    conv_rhs => rw [← l16_fields w, hop, ha]
    rfl
  rw [encode, hlen, hw]

theorem rowEncodes_lcdStartScroll :
    RowEncodes 0x60#8 ⟨.scr, fun w => .exactly (cField w).toNat,
      fun w p => .lcdStartScroll (aField w) (directionOfBit ((bField w).getLsbD 0)) p⟩ := by
  intro w p hop hr hl
  have hb : (bField w).extractLsb' 1 7 = 0 := by simpa [reservedClear] using hr
  have hlen : BitVec.ofNat 8 p.length = cField w := by simp [fits_exactly.mp hl]
  rw [encode, bitOfDirection_directionOfBit, dByte_of_reserved hb, hlen, ← hop, packWord_fields]

theorem hostRows_encode : ∀ r ∈ hostRows, RowEncodes (BitVec.ofNat 8 r.1) r.2 := by
  simp only [hostRows, List.forall_mem_cons, List.not_mem_nil, false_implies, implies_true, and_true]
  exact ⟨rowEncodes_formatN rfl, rowEncodes_formatN rfl, rowEncodes_formatN rfl, rowEncodes_formatN rfl,
    rowEncodes_formatN rfl, rowEncodes_formatN rfl, rowEncodes_clkSetTickCallback,
    rowEncodes_formatN rfl, rowEncodes_formatN rfl, rowEncodes_formatN rfl,
    rowEncodes_formatN rfl, rowEncodes_formatB8 (k := .lcdCommand) fun _ => rfl,
    rowEncodes_formatB8 (k := .lcdWriteChar) fun _ => rfl, rowEncodes_lcdPrint,
    rowEncodes_formatN rfl, rowEncodes_formatN rfl, rowEncodes_lcdSetCursor,
    rowEncodes_formatN rfl, rowEncodes_formatN rfl, rowEncodes_formatN rfl, rowEncodes_formatN rfl,
    rowEncodes_formatN rfl, rowEncodes_formatN rfl,
    rowEncodes_lcdStartScroll, rowEncodes_formatN rfl, rowEncodes_formatN rfl, rowEncodes_lcdSetScrollDirection,
    rowEncodes_formatN rfl, rowEncodes_formatN rfl,
    rowEncodes_formatG (k := .lcdCreateChar) fun _ _ => rfl, rowEncodes_formatG (k := .lcdCreateChars) fun _ _ => rfl,
    rowEncodes_formatB8 (k := .lcdWriteCustomChar) fun _ => rfl⟩

theorem encode_of_decodeHost {c : Command} {i : Instr} (h : decodeHost c = .ok i) : encode i = some (.host c) := by
  obtain ⟨w, p⟩ := c
  rcases decodeHost_cases w p with ⟨_, he⟩ | ⟨row, hrow, ⟨_, he⟩ | ⟨_, _, he⟩ | ⟨hr, hl, hok⟩⟩
  · cases h.symm.trans he
  · cases h.symm.trans he
  · cases h.symm.trans he
  · cases h.symm.trans hok
    exact hostRows_encode _ (hostRow_mem hrow) w p (by simp) hr hl

/-- Settles O6: the encoder's own arms for the eight operations of R95, and the round trip through a row for commands. -/
theorem internalOperationsAreNotIssuable : Obligations.InternalOperationsAreNotIssuable := by
  unfold Obligations.InternalOperationsAreNotIssuable
  refine ⟨?_, fun _ _ _ => ⟨rfl, rfl, rfl, rfl⟩, fun _ _ => encode_of_decodeHost⟩
  simp only [List.forall_mem_cons, List.not_mem_nil, false_implies, implies_true, and_true]
  exact ⟨rfl, rfl, rfl, rfl⟩

end Sys2Proof.Proofs

/-! PROOFS. The Clock's commands: the two reads in either context (R138, R139), start and stop in the main flow (R131,
R132), and the ticks of a Clock that does not run (R133, R136). -/

namespace Sys2Proof.Proofs

open Sys2Proof Sys2Proof.Machine

/-! The arms of the Clock's commands. -/

theorem exec_clkGetSeconds (s : State) : exec .clkGetSeconds s = execClkGetSeconds s := rfl

theorem exec_clkGetTotalHalfTicks (s : State) : exec .clkGetTotalHalfTicks s = execClkGetTotalHalfTicks s := rfl

theorem exec_clkStart (s : State) : exec .clkStart s = execClkStart s := rfl

theorem exec_clkStop (s : State) : exec .clkStop s = execClkStop s := rfl

/-! The reads. -/

/-- The model's word arithmetic is the count of R139; the second reduction is that of the 32-bit word. -/
theorem halfTicks_eq (c : Clock) :
    c.halfTicks = BitVec.ofNat 32 ((2 * c.secondsElapsed.toNat + c.halfSecondPhase.toNat) % 2 ^ 32) := by
  apply BitVec.eq_of_toNat_eq
  simp only [Clock.halfTicks, BitVec.toNat_add, BitVec.toNat_mul, BitVec.toNat_setWidth, BitVec.toNat_ofNat]
  omega

/-- Settles O17: each read replies to the context that issued it; the half-tick count is halfTicks_eq. -/
theorem clockReadsReturnSnapshot : Obligations.ClockReadsReturnSnapshot := by
  unfold Obligations.ClockReadsReturnSnapshot
  intro s
  constructor
  · rw [exec_clkGetSeconds]
    rfl
  · rw [exec_clkGetTotalHalfTicks, execClkGetTotalHalfTicks, halfTicks_eq]
    rfl

/-! Start and stop in the main flow. -/

theorem context_main {s : State} (h : s.clk.cbActive = false) : s.context = .mainFlow := by simp [State.context, h]

theorem reply_main {s : State} (h : s.clk.cbActive = false) (v : Word) : s.reply v = s.answered v := by
  rw [State.reply, context_main h, State.answered]

theorem clkStart_main {s : State} (h : s.clk.cbActive = false) :
    exec .clkStart s = .next (State.answered 0 { s with clk := { s.clk with running := true } }) := by
  rw [exec_clkStart, execClkStart, mainFlowOnly_main h, reply_main]
  exact h

theorem clkStop_main {s : State} (h : s.clk.cbActive = false) :
    exec .clkStop s = .next (State.answered 0 { s with clk := { s.clk with running := false } }) := by
  rw [exec_clkStop, execClkStop, mainFlowOnly_main h, reply_main]
  exact h

/-! Ticks of a Clock that does not run. -/

theorem tickEnabled_stopped {s : State} (h : s.clk.running = false) : s.tickEnabled = false := by
  simp [State.tickEnabled, h]

theorem tickTurn_stopped {s : State} (h : s.clk.running = false) : tickTurn s = .next s := by
  rw [tickTurn, tickEnabled_stopped h]
  rfl

/-- A tick turn of a stopped Clock takes the schedule's entry and nothing else. -/
theorem step_tick_stopped {s : State} {rest : List Choice} (hf : s.faulted = false) (hr : s.clk.running = false) :
    step { s with sched := .tick :: rest } = .next { s with sched := rest } :=
  calc step { s with sched := .tick :: rest }
    _ = tickTurn { s with sched := rest } := step_turn (s := { s with sched := .tick :: rest }) hf rfl
    _ = .next { s with sched := rest } := tickTurn_stopped hr

/-- The frozen Clock: any number of tick turns leave all but the schedule. -/
theorem runSteps_ticks_stopped (n : Nat) {s : State} (rest : List Choice) (hf : s.faulted = false)
    (hr : s.clk.running = false) :
    runSteps n { s with sched := List.replicate n .tick ++ rest } = .next { s with sched := rest } := by
  induction n with
  | zero => rfl
  | succ n ih => exact (runSteps_succ n (step_tick_stopped hf hr)).trans ih

/-- Settles O20: CLK_STOP leaves a Clock that does not run, its ticks idle, and CLK_START writes only running. -/
theorem stoppedClockStaysFrozen : Obligations.StoppedClockStaysFrozen := by
  unfold Obligations.StoppedClockStaysFrozen
  intro n s u rest hf hc hstop
  rw [clkStop_main hc] at hstop
  cases hstop
  exact ⟨runSteps_ticks_stopped n rest hf rfl, clkStart_main hc⟩

end Sys2Proof.Proofs

/-! PROOFS. The KeyScanner's rows over four gate-passing calls (R170), and its status word (R169). -/

namespace Sys2Proof.Proofs

open Sys2Proof Sys2Proof.Machine

/-! Four calls in sequence. -/

/-- Four switches in sequence, each from the currentRow that the one before left, go once round the rows. -/
theorem currentRow_four_switches {a b c d a' b' c' d' : State} (ha : RowSwitched a a') (hb : RowSwitched b b')
    (hc : RowSwitched c c') (hd : RowSwitched d d') (hab : b.kp.currentRow = a'.kp.currentRow)
    (hbc : c.kp.currentRow = b'.kp.currentRow) (hcd : d.kp.currentRow = c'.kp.currentRow) :
    [a', b', c', d'].map (·.kp.currentRow)
      = [a.kp.currentRow + 1, a.kp.currentRow + 2, a.kp.currentRow + 3, a.kp.currentRow] := by
  have first : a'.kp.currentRow = a.kp.currentRow + 1 := ha.current
  have second : b'.kp.currentRow = a.kp.currentRow + 2 := by
    rw [hb.current, hab, first, BitVec.add_assoc]; rfl
  have third : c'.kp.currentRow = a.kp.currentRow + 3 := by
    rw [hc.current, hbc, second, BitVec.add_assoc]; rfl
  have fourth : d'.kp.currentRow = a.kp.currentRow := by
    rw [hd.current, hcd, third, BitVec.add_assoc]; exact BitVec.add_zero _
  simp only [List.map, first, second, third, fourth]

/-- Once round from any row meets every row. -/
theorem mem_rows_once_round (c r : BitVec 2) : r ∈ [c + 1, c + 2, c + 3, c] := by
  revert c r; decide

/-- Settles O29: each call is one switch, four switches go once round, and once round meets every row. -/
theorem roundRobinVisitsEveryRow : Obligations.RoundRobinVisitsEveryRow := by
  unfold Obligations.RoundRobinVisitsEveryRow
  intro a b c d a' b' c' d' hgate hea heb hec hed hab hbc hcd
  have switched : ∀ x ∈ [a, b, c, d], ∀ t, exec .kpdGetKey x = .next t → RowSwitched x t := by
    intro x hx t he
    obtain ⟨hmain, hidle, hinit, hopen⟩ := hgate x hx
    exact kpdGetKey_rowSwitched ⟨hmain, hidle, hinit, hopen⟩ he
  have ha : RowSwitched a a' := switched a (by simp) a' hea
  have hb : RowSwitched b b' := switched b (by simp) b' heb
  have hc : RowSwitched c c' := switched c (by simp) c' hec
  have hd : RowSwitched d d' := switched d (by simp) d' hed
  have hrows := currentRow_four_switches ha hb hc hd hab hbc hcd
  refine ⟨hrows, ha.new_low, hb.new_low, hc.new_low, hd.new_low, fun r => ?_⟩
  have hr : r ∈ [a', b', c', d'].map (·.kp.currentRow) := hrows ▸ mem_rows_once_round _ r
  exact List.mem_map.mp hr

/-! The status word. -/

theorem exec_kpdStatus (s : State) : exec .kpdStatus s = execKpdStatus s := rfl

/-- The fields of the status word as a number: the flag stands above the two bits of the row (R93). -/
theorem statusWord_eq (k : Keypad) :
    k.statusWord = BitVec.ofNat 32 (4 * k.keyDetectedFlag.toNat + k.currentRow.toNat) := by
  have hflag : k.keyDetectedFlag.toNat ≤ 1 := Bool.toNat_le _
  have hrow : k.currentRow.toNat < 4 := k.currentRow.isLt
  apply BitVec.eq_of_toNat_eq
  rw [Keypad.statusWord, append_toNat, append_toNat, BitVec.toNat_ofBool, BitVec.toNat_ofNat, BitVec.toNat_ofNat]
  omega

/-- Settles O32: in main flow the reply is statusWord_eq, and in callback context the check raises the fault. -/
theorem kpdStatusResult : Obligations.KpdStatusResult := by
  unfold Obligations.KpdStatusResult
  intro s
  rw [exec_kpdStatus, execKpdStatus]
  constructor
  · intro hmain
    rw [mainFlowOnly_main hmain, reply_main hmain, statusWord_eq]
  · intro hcallback
    rw [mainFlowOnly_callback hcallback]
    rfl

end Sys2Proof.Proofs

/-! PROOFS. Repeated scroll updates: the position after k of them, and the period (R232, R234). -/

namespace Sys2Proof.Proofs

open Sys2Proof Sys2Proof.Machine

/-! The position on a circle of n places. -/

/-- What an update adds to the position, modulo the text length (R232). -/
def scrollStep : Direction → Int
  | .right => -1
  | .left => 1

/-- Both branches of nextPosition are one addition modulo n. -/
theorem nextPosition_eq_emod (dir : Direction) {n p : Nat} (h : p < n) :
    (nextPosition dir n p : Int) = (p + scrollStep dir) % n := by
  cases dir with
  | left => simp [nextPosition, scrollStep]
  | right =>
    simp only [nextPosition, scrollStep]
    split
    next => rw [← Int.add_emod_right, Int.emod_eq_of_lt] <;> omega
    next => rw [Int.emod_eq_of_lt] <;> omega

theorem nextPosition_lt (dir : Direction) {n p : Nat} (h : p < n) : nextPosition dir n p < n := by
  have hmod : ((p : Int) + scrollStep dir) % n < n := Int.emod_lt_of_pos _ (by omega)
  rw [← nextPosition_eq_emod dir h] at hmod
  omega

theorem iterate_nextPosition_lt (dir : Direction) {n p : Nat} (h : p < n) (k : Nat) :
    (nextPosition dir n)^[k] p < n := by
  induction k with
  | zero => exact h
  | succ k ih =>
    rw [Function.iterate_succ_apply']
    exact nextPosition_lt dir ih

theorem iterate_nextPosition_eq_emod (dir : Direction) {n p : Nat} (h : p < n) (k : Nat) :
    ((nextPosition dir n)^[k] p : Int) = (p + k * scrollStep dir) % n := by
  induction k with
  | zero => simp [Int.emod_eq_of_lt (Int.natCast_nonneg p) (Int.ofNat_lt.mpr h)]
  | succ k ih =>
    rw [Function.iterate_succ_apply', nextPosition_eq_emod dir (iterate_nextPosition_lt dir h k), ih,
      Int.emod_add_emod, Int.add_assoc, Nat.cast_succ, add_one_mul]

/-- The position is back at its start after the multiples of n and no other count. -/
theorem iterate_nextPosition_eq_self_iff (dir : Direction) {n p : Nat} (h : p < n) (k : Nat) :
    (nextPosition dir n)^[k] p = p ↔ n ∣ k := by
  have hp : (p : Int) % n = p := Int.emod_eq_of_lt (Int.natCast_nonneg p) (Int.ofNat_lt.mpr h)
  calc (nextPosition dir n)^[k] p = p
    _ ↔ (p : Int) + k * scrollStep dir ≡ p [ZMOD n] := by
      rw [Int.ModEq, hp, ← iterate_nextPosition_eq_emod dir h, Int.natCast_inj]
    _ ↔ (n : Int) ∣ k * scrollStep dir := Int.add_modEq_left_iff
    _ ↔ n ∣ k := by cases dir <;> simp [scrollStep, Int.natCast_dvd_natCast]

/-! Updates in sequence. -/

/-- LCD_UPDATE_SCROLL is called in the main flow, after LCD_INIT, while a text scrolls (R209, R232). -/
structure UpdateScrolls (s : State) : Prop where
  mainFlow : s.clk.cbActive = false
  initialised : s.lcd.initialised = true
  scrolling : s.lcd.scrollMode = .scrolling

theorem exec_lcdUpdateScroll (s : State) : exec .lcdUpdateScroll s = execLcdUpdateScroll s := rfl

theorem lcdUpdateScroll_scrolling {s : State} (h : UpdateScrolls s) :
    exec .lcdUpdateScroll s = .next (State.reply 0 (renderWindow s)) := by
  rw [exec_lcdUpdateScroll, execLcdUpdateScroll, lcdCommandStep_ready h.mainFlow h.initialised, h.scrolling]

theorem renderWindow_clk (s : State) : (renderWindow s).clk = s.clk := by
  simp [renderWindow, sendText_eq, sendCommand_eq]

theorem renderWindow_lcd (s : State) : (renderWindow s).lcd = { s.lcd with
    scrollPosition := nextPosition s.lcd.scrollDirection s.lcd.scrollText.length s.lcd.scrollPosition } := by
  simp [renderWindow, sendText_eq, sendCommand_eq]

theorem execTimes_succ {i : Instr} {s t : State} (h : exec i s = .next t) (k : Nat) :
    execTimes i (k + 1) s = execTimes i k t := by
  rw [execTimes, h]

/-- Of the display k updates change the position only, which nextPosition moves k times. -/
theorem execTimes_lcdUpdateScroll (k : Nat) {s : State} (h : UpdateScrolls s) :
    ∃ t, execTimes .lcdUpdateScroll k s = .next t ∧ t.lcd = { s.lcd with
      scrollPosition := (nextPosition s.lcd.scrollDirection s.lcd.scrollText.length)^[k] s.lcd.scrollPosition } := by
  induction k generalizing s with
  | zero => exact ⟨s, rfl, rfl⟩
  | succ k ih =>
    have hu : UpdateScrolls (State.reply 0 (renderWindow s)) := by
      constructor <;> simp [renderWindow_clk, renderWindow_lcd, h.mainFlow, h.initialised, h.scrolling]
    obtain ⟨t, hrun, hlcd⟩ := ih hu
    refine ⟨t, (execTimes_succ (lcdUpdateScroll_scrolling h) k).trans hrun, ?_⟩
    rw [hlcd, reply_lcd, renderWindow_lcd, Function.iterate_succ_apply]

/-- Settles O43: k updates move the position k steps round a circle of n places. -/
theorem scrollPeriodIsTextLength : Obligations.ScrollPeriodIsTextLength := by
  unfold Obligations.ScrollPeriodIsTextLength
  intro s k hmain hinit hscroll hp
  obtain ⟨t, hrun, hlcd⟩ := execTimes_lcdUpdateScroll k ⟨hmain, hinit, hscroll⟩
  have hpos : t.lcd.scrollPosition
      = (nextPosition s.lcd.scrollDirection s.lcd.scrollText.length)^[k] s.lcd.scrollPosition := by rw [hlcd]
  refine ⟨t, hrun, hlcd.trans (by rw [hpos]), ?_, ?_⟩
  · rw [hpos, iterate_nextPosition_eq_emod _ hp]
    cases s.lcd.scrollDirection <;> simp [scrollStep, Int.sub_eq_add_neg]
  · rw [hpos]
    exact iterate_nextPosition_eq_self_iff _ hp k

end Sys2Proof.Proofs

/-! PROOFS. Commands in callback context: the two Clock reads answer, and every other one raises CallbackReentry before it
has any effect (R269). -/

namespace Sys2Proof.Proofs

open Sys2Proof Sys2Proof.Machine

theorem context_callback {s : State} (h : s.clk.cbActive = true) : s.context = .callback := by simp [State.context, h]

/-- R269: of the host commands the two Clock reads alone run without the context check; the agent events, the
micro-operations and the bus encodings are no host commands (R95). -/
theorem exec_eq_mainFlowOnly {i : Instr} (hhost : isHostCommand i = true) (hread : isClockRead i = false) :
    ∃ body : State → State, ∀ s, exec i s = mainFlowOnly body s := by
  cases i with
  | clkGetSeconds | clkGetTotalHalfTicks => cases hread
  | evTick | evPinchange | evCbDone => cases hhost
  | pulseEnable | sendNibble | sendByte | command | writeChar => cases hhost
  | busClearDisplay | busReturnHome | busEntryModeSet | busDisplayControl | busFunctionSet => cases hhost
  | busSetCgramAddr | busSetDdramAddr | busDataWrite | busWakeNibble | bus4BitNibble => cases hhost
  | clkConfigure | clkStart | clkStop | clkReset | clkSetTickCallback => exact ⟨_, fun _ => rfl⟩
  | kpdInit | kpdGetKey | kpdStatus => exact ⟨_, fun _ => rfl⟩
  | lcdIsScrolling | lcdGetScrollPosition | lcdInit => exact ⟨_, fun _ => rfl⟩
  | lcdCommand | lcdWriteChar | lcdPrint | lcdClear | lcdHome | lcdSetCursor => exact ⟨_, fun _ => rfl⟩
  | lcdDisplayOn | lcdDisplayOff | lcdCursorOn | lcdCursorOff | lcdBlinkOn | lcdBlinkOff => exact ⟨_, fun _ => rfl⟩
  | lcdStartScroll | lcdStopScroll | lcdUpdateScroll | lcdSetScrollDirection => exact ⟨_, fun _ => rfl⟩
  | lcdCreateChar | lcdCreateChars | lcdWriteCustomChar => exact ⟨_, fun _ => rfl⟩

/-- Settles O21: refusal comes before execution (issue_of_error), the reads reply to the context (O17), and the context
check that every other host command begins with raises the fault. -/
theorem callbackMayOnlyReadClock : Obligations.CallbackMayOnlyReadClock := by
  unfold Obligations.CallbackMayOnlyReadClock
  intro s hc
  have hcontext : s.context = .callback := context_callback hc
  obtain ⟨hseconds, hhalfTicks⟩ := clockReadsReturnSnapshot s
  rw [hcontext] at hseconds hhalfTicks
  refine ⟨fun c r hdecode => ?_, hseconds, hhalfTicks, fun i hhost hread => ?_⟩
  · rw [issue_of_error hdecode, hcontext]
  · obtain ⟨body, hexec⟩ := exec_eq_mainFlowOnly hhost hread
    rw [hexec, mainFlowOnly_callback hc]
    rfl

end Sys2Proof.Proofs

/-! PROOFS. The round trips of the encodings (R90 to R97, R100 to R111), and the two refusals of the decoder: no row of the
table matches (R96), and a payload of another length than its word demands (R91). -/

namespace Sys2Proof.Proofs

open Sys2Proof Sys2Proof.Machine

/-! Decoding what the encoder writes. -/

/-- A word with one operand byte in C, of formats B8 or D1, decodes through its row. -/
theorem decodeHost_formatC {op b : Byte} {f : Format} {build : Word → Instr}
    (hrow : hostRow op.toNat = some (bareRow f build)) (hr : reservedClear f (packWord op 0 0 b) = true) :
    decodeHost ⟨packWord op 0 0 b, []⟩ = .ok (build (packWord op 0 0 b)) :=
  decodeHost_ok (row := bareRow f build) (by simpa using hrow) hr rfl

/-- A word of a row that builds i from it decodes to i: the payload of a well-formed instruction has the length that the
row demands. -/
theorem decodeHost_of_row {i : Instr} {w : Word} {p : List Byte} {row : HostRow} (hfits : Laws.PayloadFits.Statement i)
    (hw : i.wf = true) (he : encode i = some (.host ⟨w, p⟩)) (hrow : hostRow (opField w).toNat = some row)
    (hr : reservedClear row.format w = true) (hbuild : row.build w p = i) : decodeHost ⟨w, p⟩ = .ok i := by
  obtain ⟨row', hrow', hl⟩ := hfits hw _ he
  cases hrow.symm.trans hrow'
  rw [decodeHost_ok hrow hr hl, hbuild]

theorem decodeHost_clkSetTickCallback (h : BitVec 24) :
    decodeHost ⟨0x07#8 ++ h, []⟩ = .ok (.clkSetTickCallback h) :=
  decodeHost_of_row (Laws.PayloadFits.clkSetTickCallback h) rfl rfl (by rw [opField_h24]; rfl) rfl (by simp [bareRow])

theorem decodeHost_lcdPrint {text : List Byte} (hw : wfText text = true) :
    decodeHost ⟨0x43#8 ++ 0x00#8 ++ BitVec.ofNat 16 text.length, text⟩ = .ok (.lcdPrint text) :=
  decodeHost_of_row (Laws.PayloadFits.lcdPrint text) hw rfl (by rw [opField_l16]; rfl) (by rw [reservedClear, aField_l16]; rfl)
    rfl

theorem decodeHost_lcdSetCursor (col row : Byte) :
    decodeHost ⟨packWord 0x46#8 0 col row, []⟩ = .ok (.lcdSetCursor col row) :=
  decodeHost_of_row (Laws.PayloadFits.lcdSetCursor col row) rfl rfl (by rw [opField_packWord]; rfl)
    (by simp [bareRow, reservedClear]) (by simp [bareRow])

theorem decodeHost_lcdStartScroll (row : Byte) (dir : Direction) {text : List Byte} (hw : wfScrollText text = true) :
    decodeHost ⟨packWord 0x60#8 row (dByte (bitOfDirection dir)) (BitVec.ofNat 8 text.length), text⟩
      = .ok (.lcdStartScroll row dir text) :=
  decodeHost_of_row (Laws.PayloadFits.lcdStartScroll row dir text) hw rfl (by rw [opField_packWord]; rfl)
    (by simp [reservedClear]) (by simp only [aField_packWord, bField_packWord, direction_of_dByte])

theorem decodeHost_lcdCreateChar (slot : Byte) {bitmap : List Byte} (hw : wfBitmap bitmap = true) :
    decodeHost ⟨packWord 0x70#8 0 0 slot, bitmap⟩ = .ok (.lcdCreateChar slot bitmap) :=
  decodeHost_of_row (Laws.PayloadFits.lcdCreateChar slot bitmap) hw rfl (by rw [opField_packWord]; rfl)
    (by simp [reservedClear]) (by simp)

theorem decodeHost_lcdCreateChars (count : Byte) {bitmaps : List Byte} (hw : wfBitmaps count bitmaps = true) :
    decodeHost ⟨packWord 0x71#8 0 0 count, bitmaps⟩ = .ok (.lcdCreateChars count bitmaps) :=
  decodeHost_of_row (Laws.PayloadFits.lcdCreateChars count bitmaps) hw rfl (by rw [opField_packWord]; rfl)
    (by simp [reservedClear]) (by simp)

theorem decodeHost_of_encode {i : Instr} {c : Command} (hw : i.wf = true) (he : encode i = some (.host c)) :
    decodeHost c = .ok i := by
  cases i with
  | clkConfigure | clkStart | clkStop | clkReset | clkGetSeconds | clkGetTotalHalfTicks | kpdInit | kpdGetKey | kpdStatus =>
    cases he; exact decodeHost_formatN _ _ rfl
  | lcdInit | lcdClear | lcdHome | lcdDisplayOn | lcdDisplayOff | lcdCursorOn | lcdCursorOff | lcdBlinkOn | lcdBlinkOff =>
    cases he; exact decodeHost_formatN _ _ rfl
  | lcdStopScroll | lcdUpdateScroll | lcdIsScrolling | lcdGetScrollPosition =>
    cases he; exact decodeHost_formatN _ _ rfl
  | lcdCommand b | lcdWriteChar b | lcdWriteCustomChar b =>
    cases he; exact (decodeHost_formatC rfl (by simp [reservedClear])).trans (by rw [cField_packWord])
  | lcdSetScrollDirection dir =>
    cases he
    exact (decodeHost_formatC rfl (by simp [reservedClear])).trans (by rw [cField_packWord, direction_of_dByte])
  | clkSetTickCallback h => cases he; exact decodeHost_clkSetTickCallback h
  | lcdPrint text => cases he; exact decodeHost_lcdPrint hw
  | lcdSetCursor col row => cases he; exact decodeHost_lcdSetCursor col row
  | lcdStartScroll row dir text => cases he; exact decodeHost_lcdStartScroll row dir hw
  | lcdCreateChar slot bitmap => cases he; exact decodeHost_lcdCreateChar slot hw
  | lcdCreateChars count bitmaps => cases he; exact decodeHost_lcdCreateChars count hw
  | evTick | evPinchange | evCbDone | pulseEnable | sendNibble | sendByte | command | writeChar => cases he
  | busClearDisplay | busReturnHome | busEntryModeSet | busDisplayControl | busFunctionSet => cases he
  | busSetCgramAddr | busSetDdramAddr | busDataWrite | busWakeNibble | bus4BitNibble => cases he

/-! Command bytes of the bus, at every value of their bits. -/

theorem decodeBusCommand_returnHome :
    ∀ x, decodeBusCommand (0b0000001#7 ++ BitVec.ofBool x) = .ok (.busReturnHome x) := by decide

theorem decodeBusCommand_entryModeSet :
    ∀ x y, decodeBusCommand (0b000001#6 ++ BitVec.ofBool x ++ BitVec.ofBool y) = .ok (.busEntryModeSet x y) := by decide

theorem decodeBusCommand_displayControl : ∀ x y z,
    decodeBusCommand (0b00001#5 ++ BitVec.ofBool x ++ BitVec.ofBool y ++ BitVec.ofBool z)
      = .ok (.busDisplayControl x y z) := by decide

theorem decodeBusCommand_functionSet : ∀ (x y z : Bool) (q : BitVec 2),
    decodeBusCommand (0b001#3 ++ BitVec.ofBool x ++ BitVec.ofBool y ++ BitVec.ofBool z ++ q)
      = .ok (.busFunctionSet x y z q) := by decide

theorem decodeBusCommand_setCgramAddr :
    ∀ a : BitVec 6, decodeBusCommand (0b01#2 ++ a) = .ok (.busSetCgramAddr a) := by decide

theorem decodeBusCommand_setDdramAddr :
    ∀ a : BitVec 7, decodeBusCommand (0b1#1 ++ a) = .ok (.busSetDdramAddr a) := by decide

theorem decodeBus_of_encode {i : Instr} {t : BusTransfer} (he : encode i = some (.bus t)) : decodeBus t = .ok i := by
  cases i with
  | busClearDisplay | busDataWrite | busWakeNibble | bus4BitNibble => cases he; rfl
  | busReturnHome x => cases he; exact decodeBusCommand_returnHome x
  | busEntryModeSet x y => cases he; exact decodeBusCommand_entryModeSet x y
  | busDisplayControl x y z => cases he; exact decodeBusCommand_displayControl x y z
  | busFunctionSet x y z q => cases he; exact decodeBusCommand_functionSet x y z q
  | busSetCgramAddr a => cases he; exact decodeBusCommand_setCgramAddr a
  | busSetDdramAddr a => cases he; exact decodeBusCommand_setDdramAddr a
  | _ => cases he

/-- Settles O1: by the arms of the encoder, a host command through its row and a bus byte by its leading 1. -/
theorem decodeOfEncodeGivesInstr : Obligations.DecodeOfEncodeGivesInstr := by
  unfold Obligations.DecodeOfEncodeGivesInstr
  intro i hw c he
  cases c with
  | host c => simp only [decode, decodeHost_of_encode hw he, Except.toOption]
  | bus t => simp only [decode, decodeBus_of_encode he, Except.toOption]

/-! Encoding what the decoder reads. -/

/-- Whatever a row builds from a payload of the length it demands is well formed. -/
def RowWellFormed (row : HostRow) : Prop :=
  ∀ (w : Word) (p : List Byte), (row.length w).fits p = true → (row.build w p).wf = true

theorem rowWellFormed_bare {f : Format} {build : Word → Instr} (h : ∀ w, (build w).wf = true) :
    RowWellFormed (bareRow f build) := fun w _ _ => h w

theorem rowWellFormed_lcdPrint :
    RowWellFormed ⟨.l16, fun w => .exactly (lField w).toNat, fun _ p => .lcdPrint p⟩ := by
  intro w p hl
  simp [Instr.wf, wfText, fits_exactly.mp hl, (lField w).isLt]

theorem rowWellFormed_lcdStartScroll :
    RowWellFormed ⟨.scr, fun w => .exactly (cField w).toNat,
      fun w p => .lcdStartScroll (aField w) (directionOfBit ((bField w).getLsbD 0)) p⟩ := by
  intro w p hl
  simp [Instr.wf, wfScrollText, fits_exactly.mp hl, (cField w).isLt]

theorem rowWellFormed_lcdCreateChars :
    RowWellFormed ⟨.g, fun w => if (cField w).toNat ≤ 8 then .exactly (8 * (cField w).toNat) else .any,
      fun w p => .lcdCreateChars (cField w) p⟩ := by
  intro w p hl
  by_cases hcount : (cField w).toNat ≤ 8
  · simp only [if_pos hcount, fits_exactly] at hl
    simp [Instr.wf, wfBitmaps, hl]
  · simp [Instr.wf, wfBitmaps, Nat.lt_of_not_le hcount]

theorem hostRows_wellFormed : ∀ r ∈ hostRows, RowWellFormed r.2 := by
  have bare {f : Format} {build : Word → Instr} (h : ∀ w, (build w).wf = true) := rowWellFormed_bare (f := f) h
  simp only [hostRows, List.forall_mem_cons, List.not_mem_nil, false_implies, implies_true, and_true]
  refine ⟨?_, ?_, ?_, ?_, ?_, ?_, ?_, ?_, ?_, ?_, ?_, ?_, ?_, rowWellFormed_lcdPrint, ?_, ?_, ?_, ?_, ?_, ?_, ?_, ?_, ?_,
    rowWellFormed_lcdStartScroll, ?_, ?_, ?_, ?_, ?_, fun _ _ hl => hl, rowWellFormed_lcdCreateChars, ?_⟩
  all_goals exact bare fun _ => rfl

theorem wf_of_decodeHost {c : Command} {i : Instr} (h : decodeHost c = .ok i) : i.wf = true := by
  obtain ⟨w, p⟩ := c
  rcases decodeHost_cases w p with ⟨_, he⟩ | ⟨row, hrow, ⟨_, he⟩ | ⟨_, _, he⟩ | ⟨_, hl, hok⟩⟩
  · cases h.symm.trans he
  · cases h.symm.trans he
  · cases h.symm.trans he
  · cases h.symm.trans hok
    exact hostRows_wellFormed _ (hostRow_mem hrow) w p hl

/-- Checked on all 256 bytes: the bits that a branch tests and those that it keeps are the whole byte. -/
theorem encode_of_decodeBusCommand {b : Byte} {i : Instr} (h : decodeBusCommand b = .ok i) :
    encode i = some (.bus (.byte false b)) ∧ i.wf = true := by
  have rebuilt : ∀ b : Byte, ∀ i ∈ (decodeBusCommand b).toOption,
      encode i = some (.bus (.byte false b)) ∧ i.wf = true := by decide
  exact rebuilt b i (by rw [h]; rfl)

theorem encode_of_decodeBus {t : BusTransfer} {i : Instr} (h : decodeBus t = .ok i) :
    encode i = some (.bus t) ∧ i.wf = true := by
  match t with
  | .byte true d => cases h; exact ⟨rfl, rfl⟩
  | .byte false b => exact encode_of_decodeBusCommand h
  | .nibble v =>
    simp only [decodeBus] at h
    split at h
    · next hv => cases h; subst hv; exact ⟨rfl, rfl⟩
    · split at h
      · next hv => cases h; subst hv; exact ⟨rfl, rfl⟩
      · cases h

/-- Settles O2: a host command is read back through its row, a bus byte from the bits that its branch tests and keeps. -/
theorem encodeOfDecodeGivesCode : Obligations.EncodeOfDecodeGivesCode := by
  unfold Obligations.EncodeOfDecodeGivesCode
  intro c i h
  cases c with
  | host c =>
    cases hd : decodeHost c with
    | error r => simp [decode, hd, Except.toOption] at h
    | ok j =>
      obtain rfl : j = i := by simpa [decode, hd, Except.toOption] using h
      exact ⟨encode_of_decodeHost hd, wf_of_decodeHost hd⟩
  | bus t =>
    cases hd : decodeBus t with
    | error r => simp [decode, hd, Except.toOption] at h
    | ok j =>
      obtain rfl : j = i := by simpa [decode, hd, Except.toOption] using h
      exact encode_of_decodeBus hd

/-! The refusals of the decoder. -/

/-- The OP of every row is a byte, so a word with the match of the row under its mask has that row's OP. -/
theorem hostRow_of_mem : ∀ r ∈ hostRows, hostRow (BitVec.ofNat 8 r.1).toNat = some r.2 := by
  simp only [hostRows, List.forall_mem_cons, List.not_mem_nil, false_implies, implies_true, and_true]
  refine ⟨?_, ?_, ?_, ?_, ?_, ?_, ?_, ?_, ?_, ?_, ?_, ?_, ?_, ?_, ?_, ?_, ?_, ?_, ?_, ?_, ?_, ?_, ?_, ?_, ?_, ?_, ?_, ?_,
    ?_, ?_, ?_, ?_⟩
  all_goals rfl

theorem opField_masked (f : Format) (w : Word) : opField (w &&& formatMask f) = opField w := by
  have hff (b : Byte) : b &&& 0xFF#8 = b := BitVec.and_allOnes
  rw [← packWord_fields w]
  cases f <;> simp [formatMask, packWord_and, hff]

/-- A word that matches a row of the table has that row and clear reserved bits. -/
theorem row_of_match {w : Word} {r : Word × Word} (hr : r ∈ opcodeMasks) (hm : w &&& r.2 = r.1) :
    ∃ row, hostRow (opField w).toNat = some row ∧ reservedClear row.format w = true := by
  rw [opcodeMasks_eq] at hr
  obtain ⟨⟨op, row⟩, hmem, rfl⟩ := List.mem_map.mp hr
  have hop : opField w = BitVec.ofNat 8 op := by
    rw [← opField_masked row.format, hm, opField_packWord]
  refine ⟨row, by rw [hop]; exact hostRow_of_mem _ hmem, ?_⟩
  rw [reservedClear_iff_masked, hop]
  exact hm

/-- Settles O3: a row's match and mask say that the word has the row's OP and clear reserved bits. -/
theorem illegalExactlyWhenNoRowMatches : Obligations.IllegalExactlyWhenNoRowMatches := by
  unfold Obligations.IllegalExactlyWhenNoRowMatches
  intro w p
  refine ⟨fun hill r hr hm => ?_, fun h => decodeHost_of_no_match h p⟩
  obtain ⟨row, hrow, hclear⟩ := row_of_match hr hm
  simp only [decodeHost, hrow, hclear, if_true] at hill
  split at hill <;> cases hill

/-- Only LCD_CREATE_CHARS with a count above 8 takes a payload of any length (R92). -/
theorem length_any {op : Nat} {row : HostRow} {w : Word} (hm : (op, row) ∈ hostRows) (hl : row.length w = .any)
    (p : List Byte) : row.build w p = .lcdCreateChars (cField w) p ∧ 8 < (cField w).toNat := by
  have key : ∀ r ∈ hostRows, r.2.length w = .any →
      r.2.build w p = .lcdCreateChars (cField w) p ∧ 8 < (cField w).toNat := by
    simp [hostRows, bareRow]
  exact key _ hm hl

/-- Settles O5: the row demands an exact length, which is the one that the encoding has. -/
theorem wrongPayloadLengthRefused : Obligations.WrongPayloadLengthRefused := by
  unfold Obligations.WrongPayloadLengthRefused
  intro i c p s hw he hcount hne
  obtain ⟨w, q⟩ := c
  have hdec : decodeHost ⟨w, q⟩ = .ok i := decodeHost_of_encode hw he
  apply issue_of_error
  rcases decodeHost_cases w q with ⟨_, h⟩ | ⟨row, hrow, ⟨_, h⟩ | ⟨_, _, h⟩ | ⟨hr, hl, hok⟩⟩
  · cases hdec.symm.trans h
  · cases hdec.symm.trans h
  · cases hdec.symm.trans h
  · cases hdec.symm.trans hok
    cases hlen : row.length w with
    | any =>
      obtain ⟨hbuild, hlarge⟩ := length_any (hostRow_mem hrow) hlen q
      exact absurd (hcount _ _ hbuild) (Nat.not_le.mpr hlarge)
    | exactly n =>
      rw [hlen, fits_exactly] at hl
      have hfits : (row.length w).fits p = false := by
        rw [hlen, ← Bool.not_eq_true, fits_exactly, ← hl]
        exact hne
      simp only [decodeHost, hrow, hr, hfits, if_true]
      rfl

/-- Settles O7: a sanity statement on fixed words. -/
theorem vectorWordsDecode : Obligations.VectorWordsDecode := by
  unfold Obligations.VectorWordsDecode
  decide

end Sys2Proof.Proofs

/-! PROOFS. What one instruction can do, said once for each part of the block: the Clock, the KeyScanner, the CharDisplay
commands, the agent events, and the micro-operations with the bus encodings. The statements about every instruction are
derived from these. -/

namespace Sys2Proof.Proofs

open Sys2Proof Sys2Proof.Machine

/-! The parts of the block (R94, R95). -/

/-- The part of the block that an instruction belongs to. -/
inductive Part where
  | clock
  | keypad
  | display
  | agent
  | bus
deriving DecidableEq

def partOf (i : Instr) : Part :=
  match i with
  | .clkConfigure | .clkStart | .clkStop | .clkReset | .clkGetSeconds | .clkGetTotalHalfTicks | .clkSetTickCallback _ => .clock
  | .kpdInit | .kpdGetKey | .kpdStatus => .keypad
  | .lcdInit | .lcdCommand _ | .lcdWriteChar _ | .lcdPrint _ | .lcdClear | .lcdHome | .lcdSetCursor _ _
  | .lcdDisplayOn | .lcdDisplayOff | .lcdCursorOn | .lcdCursorOff | .lcdBlinkOn | .lcdBlinkOff
  | .lcdStartScroll _ _ _ | .lcdStopScroll | .lcdUpdateScroll | .lcdSetScrollDirection _ | .lcdIsScrolling
  | .lcdGetScrollPosition | .lcdCreateChar _ _ | .lcdCreateChars _ _ | .lcdWriteCustomChar _ => .display
  | .evTick | .evPinchange | .evCbDone => .agent
  | .pulseEnable | .sendNibble _ | .sendByte _ _ | .command _ | .writeChar _
  | .busClearDisplay | .busReturnHome _ | .busEntryModeSet _ _ | .busDisplayControl _ _ _ | .busFunctionSet _ _ _ _
  | .busSetCgramAddr _ | .busSetDdramAddr _ | .busDataWrite _ | .busWakeNibble | .bus4BitNibble => .bus

theorem commandOp_of_packWord {i : Instr} {op a b c : Byte} {p : List Byte}
    (h : encode i = some (.host ⟨packWord op a b c, p⟩)) : commandOp i = some op.toNat := by
  rw [commandOp, h]
  simp only [← opField_toNat, opField_packWord]

theorem commandOp_clkSetTickCallback (h : BitVec 24) : commandOp (.clkSetTickCallback h) = some 0x07 := by
  simp only [commandOp, encode, ← opField_toNat, opField_h24]
  rfl

theorem commandOp_lcdPrint (text : List Byte) : commandOp (.lcdPrint text) = some 0x43 := by
  simp only [commandOp, encode, ← opField_toNat, opField_l16]
  rfl

/-- The OP value tells the part: group 0 is the Clock, 1 the KeyScanner, 2 and 3 the CharDisplay, whose first OP is
LCD_INIT's (R94). -/
theorem partOf_of_commandOp {i : Instr} {op : Nat} (h : commandOp i = some op) :
    (partOf i = .clock ∧ op < 0x20) ∨ (partOf i = .keypad ∧ 0x20 ≤ op ∧ op < 0x40)
      ∨ (partOf i = .display ∧ 0x40 ≤ op ∧ (i = .lcdInit ↔ op = 0x40)) := by
  cases i with
  | clkConfigure | clkStart | clkStop | clkReset | clkGetSeconds | clkGetTotalHalfTicks => cases h; decide
  | kpdInit | kpdGetKey | kpdStatus => cases h; decide
  | lcdInit | lcdClear | lcdHome | lcdDisplayOn | lcdDisplayOff | lcdCursorOn | lcdCursorOff | lcdBlinkOn | lcdBlinkOff =>
    cases h; decide
  | lcdStopScroll | lcdUpdateScroll | lcdIsScrolling | lcdGetScrollPosition => cases h; decide
  | clkSetTickCallback x => cases h.symm.trans (commandOp_clkSetTickCallback x); simp [partOf]
  | lcdPrint x => cases h.symm.trans (commandOp_lcdPrint x); simp [partOf]
  | lcdCommand | lcdWriteChar | lcdWriteCustomChar | lcdSetCursor | lcdStartScroll | lcdSetScrollDirection | lcdCreateChar
  | lcdCreateChars =>
    cases h.symm.trans (commandOp_of_packWord rfl); simp [partOf]
  | _ => cases h

/-- A host command belongs to the Clock, the KeyScanner or the CharDisplay. -/
theorem partOf_of_isHostCommand {i : Instr} (h : isHostCommand i = true) :
    partOf i = .clock ∨ partOf i = .keypad ∨ partOf i = .display := by
  cases i <;> first | exact .inl rfl | exact .inr (.inl rfl) | exact .inr (.inr rfl) | cases h

theorem partOf_of_decodeHost {c : Command} {i : Instr} (h : decodeHost c = .ok i) :
    partOf i = .clock ∨ partOf i = .keypad ∨ partOf i = .display :=
  partOf_of_isHostCommand (by rw [isHostCommand, encode_of_decodeHost h])

theorem partOf_of_decodeBus {t : BusTransfer} {i : Instr} (h : decodeBus t = .ok i) : partOf i = .bus := by
  have he : encode i = some (.bus t) := (encode_of_decodeBus h).1
  cases i <;> first | rfl | cases he

/-! The Clock. -/

/-- The writes to the Clock that its commands make (R33 to R36). -/
inductive ClockWrite (k : Clock) : Instr → Clock → Prop where
  | none (i : Instr) : ClockWrite k i k
  | configure : ClockWrite k .clkConfigure { k with configured := true }
  | start : ClockWrite k .clkStart { k with running := true }
  | stop : ClockWrite k .clkStop { k with running := false }
  | reset : ClockWrite k .clkReset { k with halfSecondPhase := 0, secondsElapsed := 0 }
  | callback (h : BitVec 24) : ClockWrite k (.clkSetTickCallback h) { k with callback := h }

/-- What a Clock command that is let run answers: a refusal, or a result after a write to the Clock, which in callback
context is none (R269). -/
inductive ClockAnswer (i : Instr) (s : State) : State → Prop where
  | refuse (r : Reason) : ClockAnswer i s (s.refuse r)
  | reply (v : Word) {k : Clock} (hw : ClockWrite s.clk i k) (hk : s.clk.cbActive = true → k = s.clk) :
    ClockAnswer i s (State.reply v { s with clk := k })

theorem clockAnswer_main {i : Instr} {body : State → State} {s t : State} (h : mainFlowOnly body s = .next t)
    (hb : s.clk.cbActive = false → ClockAnswer i s (body s)) :
    (s.clk.cbActive = true ∧ t = s.raise .callbackReentry) ∨ ClockAnswer i s t := by
  rcases mainFlowOnly_cases h with hraise | ⟨hc, rfl⟩
  · exact .inl hraise
  · exact .inr (hb hc)

theorem clockAnswer_reply {i : Instr} {s : State} {k : Clock} (hc : s.clk.cbActive = false) (hw : ClockWrite s.clk i k) :
    ClockAnswer i s (State.reply 0 { s with clk := k }) := .reply 0 hw fun h => absurd h (by simp [hc])

theorem exec_clkConfigure (s : State) : exec .clkConfigure s = execClkConfigure s := rfl

theorem exec_clkReset (s : State) : exec .clkReset s = execClkReset s := rfl

theorem exec_clkSetTickCallback (h : BitVec 24) (s : State) :
    exec (.clkSetTickCallback h) s = execClkSetTickCallback h s := rfl

theorem exec_clock {i : Instr} {s t : State} (hp : partOf i = .clock) (h : exec i s = .next t) :
    (s.clk.cbActive = true ∧ t = s.raise .callbackReentry) ∨ ClockAnswer i s t := by
  cases i with
  | clkConfigure =>
    rw [exec_clkConfigure, execClkConfigure] at h
    refine clockAnswer_main h fun hc => ?_
    by_cases hdone : s.clk.configured
    · rw [hdone, onceOnly_again]; exact .refuse _
    · rw [Bool.eq_false_iff.mpr hdone, onceOnly_first]; exact clockAnswer_reply hc .configure
  | clkStart =>
    rw [exec_clkStart, execClkStart] at h
    refine clockAnswer_main h fun hc => ?_
    exact clockAnswer_reply hc .start
  | clkStop =>
    rw [exec_clkStop, execClkStop] at h
    refine clockAnswer_main h fun hc => ?_
    exact clockAnswer_reply hc .stop
  | clkReset =>
    rw [exec_clkReset, execClkReset] at h
    refine clockAnswer_main h fun hc => ?_
    exact clockAnswer_reply hc .reset
  | clkSetTickCallback handle =>
    rw [exec_clkSetTickCallback, execClkSetTickCallback] at h
    refine clockAnswer_main h fun hc => ?_
    exact clockAnswer_reply hc (.callback handle)
  | clkGetSeconds => cases h; exact .inr (.reply s.clk.secondsElapsed (.none _) fun _ => rfl)
  | clkGetTotalHalfTicks => cases h; exact .inr (.reply s.clk.halfTicks (.none _) fun _ => rfl)
  | _ => cases hp

/-! The KeyScanner. -/

/-- The second half of a call leaves the flag clear and the phase idle; it may sample the columns and stamp the time (R166,
R167). -/
theorem getKeySecondHalf_eq (s : State) : ∃ (v : Word) (c : BitVec 4) (evs : List Event),
    (evs = [] ∨ evs = [.inCols c]) ∧ ∃ stamp, getKeySecondHalf s = State.reply v { s with
      trace := s.trace ++ evs
      kp := { s.kp with keyDetectedFlag := false, gkPhase := .idle, lastDebounceTimestamp := stamp } } := by
  unfold getKeySecondHalf
  by_cases hflag : s.kp.keyDetectedFlag
  · simp only [hflag, if_true]
    cases firstLowColumn (clearKeyFlag s).colLevel with
    | none => exact ⟨_, s.colLevel, _, .inr rfl, s.kp.lastDebounceTimestamp, rfl⟩
    | some col => exact ⟨_, s.colLevel, _, .inr rfl, s.kp.gkTime, rfl⟩
  · simp only [hflag]
    refine ⟨Config.noKey.setWidth 32, 0, [], .inl rfl, s.kp.lastDebounceTimestamp, ?_⟩
    rw [List.append_nil]
    rfl

/-- What a KeyScanner command that is let run answers. -/
inductive KeypadAnswer (s : State) : Instr → State → Prop where
  | refuse (i : Instr) (r : Reason) : KeypadAnswer s i (s.refuse r)
  | status (v : Word) : KeypadAnswer s .kpdStatus (s.reply v)
  | init (v : Word) : KeypadAnswer s .kpdInit (State.reply v { s with
      pin := { s.pin with row := ⟨.low, .low, .low, .low⟩ }
      trace := s.trace ++ [.out (.row 0) false, .out (.row 1) false, .out (.row 2) false, .out (.row 3) false]
      kp := { s.kp with pcPending := false, initialised := true } })
  | rejected (v : Word) (hi : s.kp.gkPhase = .idle) : KeypadAnswer s .kpdGetKey (s.sampleTime.reply v)
  | switched (p : Bool) (hk : s.kp.initialised = true) (hi : s.kp.gkPhase = .idle) : KeypadAnswer s .kpdGetKey { s with
      pin := { s.pin with row := Four.set (Four.set s.pin.row s.kp.currentRow .high) (s.kp.currentRow + 1) .low }
      trace := s.trace ++ [.out (.row s.kp.currentRow) true, .out (.row (s.kp.currentRow + 1)) false, .wait .settle]
      timeSamples := s.timeSamples ++ [(s.trace.length, s.now)]
      kp := { s.kp with currentRow := s.kp.currentRow + 1, pcPending := p, gkTime := s.now, gkPhase := .switched } }
  | resumed (v : Word) (c : BitVec 4) (evs : List Event) (he : evs = [] ∨ evs = [.inCols c]) (stamp : Word)
      (hi : s.kp.gkPhase = .switched) : KeypadAnswer s .kpdGetKey (State.reply v { s with
      trace := s.trace ++ evs
      kp := { s.kp with keyDetectedFlag := false, gkPhase := .idle, lastDebounceTimestamp := stamp } })

theorem keypadAnswer_main {i : Instr} {body : State → State} {s t : State} (h : mainFlowOnly body s = .next t)
    (hb : s.clk.cbActive = false → KeypadAnswer s i (body s)) :
    (s.clk.cbActive = true ∧ t = s.raise .callbackReentry) ∨ (s.clk.cbActive = false ∧ KeypadAnswer s i t) := by
  rcases mainFlowOnly_cases h with hraise | ⟨hc, rfl⟩
  · exact .inl hraise
  · exact .inr ⟨hc, hb hc⟩

theorem keypadAnswer_init (s : State) : KeypadAnswer s .kpdInit (State.reply 0 { driveRowsActive s with
    kp := { (driveRowsActive s).kp with pcPending := false, initialised := true } }) := by
  obtain ⟨p, hdrive⟩ := driveRowsActive_eq s
  rw [hdrive]
  exact .init 0

theorem getKeyFirstHalf_eq {s : State} (h : s.cfg.debounceMs ≤ (s.now - s.kp.lastDebounceTimestamp).toNat) :
    ∃ p, getKeyFirstHalf s = { s with
      pin := { s.pin with row := Four.set (Four.set s.pin.row s.kp.currentRow .high) (s.kp.currentRow + 1) .low }
      trace := s.trace ++ [.out (.row s.kp.currentRow) true, .out (.row (s.kp.currentRow + 1)) false, .wait .settle]
      timeSamples := s.timeSamples ++ [(s.trace.length, s.now)]
      kp := { s.kp with currentRow := s.kp.currentRow + 1, pcPending := p, gkTime := s.now, gkPhase := .switched } } := by
  obtain ⟨p, hswitch⟩ := switchRow_eq s.sampleTime
  refine ⟨p, ?_⟩
  rw [getKeyFirstHalf_passed h, hswitch]
  simp [State.wait, State.emit]

theorem keypadAnswer_firstHalf {s : State} (hk : s.kp.initialised = true) (hi : s.kp.gkPhase = .idle) :
    KeypadAnswer s .kpdGetKey (getKeyFirstHalf s) := by
  rcases Nat.lt_or_ge (s.now - s.kp.lastDebounceTimestamp).toNat s.cfg.debounceMs with hlt | hge
  · rw [getKeyFirstHalf_rejected hlt]
    exact .rejected _ hi
  · obtain ⟨p, hpass⟩ := getKeyFirstHalf_eq hge
    rw [hpass]
    exact .switched p hk hi

theorem keypadAnswer_secondHalf {s : State} (hi : s.kp.gkPhase = .switched) :
    KeypadAnswer s .kpdGetKey (getKeySecondHalf s) := by
  obtain ⟨v, c, evs, he, stamp, hhalf⟩ := getKeySecondHalf_eq s
  rw [hhalf]
  exact .resumed v c evs he stamp hi

theorem exec_keypad {i : Instr} {s t : State} (hp : partOf i = .keypad) (h : exec i s = .next t) :
    (s.clk.cbActive = true ∧ t = s.raise .callbackReentry) ∨ (s.clk.cbActive = false ∧ KeypadAnswer s i t) := by
  cases i with
  | kpdInit =>
    rw [exec_kpdInit, execKpdInit] at h
    refine keypadAnswer_main h fun _ => ?_
    by_cases hdone : s.kp.initialised
    · rw [hdone, onceOnly_again]; exact .refuse _ _
    · rw [Bool.eq_false_iff.mpr hdone, onceOnly_first]; exact keypadAnswer_init s
  | kpdGetKey =>
    rw [exec_kpdGetKey, execKpdGetKey] at h
    refine keypadAnswer_main h fun _ => ?_
    cases hphase : s.kp.gkPhase with
    | switched => exact keypadAnswer_secondHalf hphase
    | idle =>
      by_cases hinit : s.kp.initialised
      · simp only [hinit, if_true]; exact keypadAnswer_firstHalf hinit hphase
      · simp only [hinit]; exact .refuse _ _
  | kpdStatus =>
    rw [exec_kpdStatus, execKpdStatus] at h
    refine keypadAnswer_main h fun _ => ?_
    exact .status _
  | _ => cases hp

end Sys2Proof.Proofs

/-! PROOFS. What a CharDisplay command and a bus operation can do, said once: the bytes it puts on the bus (R190 to R195,
R100), and the writes to the display state (R51 to R55). -/

namespace Sys2Proof.Proofs

open Sys2Proof Sys2Proof.Machine

/-! Bytes on the bus. -/

/-- What a CharDisplay command puts on the bus, in pieces: a byte with its execution wait, or a command byte with the
long-recovery wait after it (R192, R199). -/
inductive BusPiece where
  | byte (rs : Bool) (b : Byte)
  | long (b : Byte)

def BusPiece.events (m : Mode) : BusPiece → List Event
  | .byte rs b => byteEvents m rs b
  | .long b => byteEvents m false b ++ [.wait .long]

/-- The piece waits as long as its byte asks for (R296). -/
def BusPiece.Settled : BusPiece → Prop
  | .byte rs b => rs = true ∨ 4 ≤ b.toNat ∨ b = 0
  | .long b => b = 0x01#8 ∨ b = 0x02#8

def piecesEvents (m : Mode) (l : List BusPiece) : List Event := l.flatMap (BusPiece.events m)

theorem piecesEvents_append (m : Mode) (l l' : List BusPiece) :
    piecesEvents m (l ++ l') = piecesEvents m l ++ piecesEvents m l' := by simp [piecesEvents]

/-- t is s after a CharDisplay effect with n replies that puts the pieces l on the bus. -/
structure Sends (n : Nat) (l : List BusPiece) (s t : State) : Prop where
  effect : LcdEffect n s t
  emits : t.trace = s.trace ++ piecesEvents s.mode l

theorem mode_of_lcdEffect {n : Nat} {s t : State} (h : LcdEffect n s t) : t.mode = s.mode := by
  simp only [State.mode, Display.mode, h.simMode]

theorem Sends.trans {m n : Nat} {l l' : List BusPiece} {s t u : State} (h : Sends m l s t) (g : Sends n l' t u) :
    Sends (m + n) (l ++ l') s u where
  effect := h.effect.trans g.effect
  emits := by rw [g.emits, h.emits, mode_of_lcdEffect h.effect, piecesEvents_append, List.append_assoc]

/-- An effect that leaves the trace alone puts nothing on the bus. -/
theorem sends_nothing {n : Nat} {s t : State} (h : LcdEffect n s t) (ht : t.trace = s.trace) : Sends n [] s t :=
  ⟨h, by simp [ht, piecesEvents]⟩

theorem sends_reply (v : Word) (s : State) : Sends 1 [] s (s.reply v) := sends_nothing (lcdEffect_reply v s) rfl

theorem sends_refuse (r : Reason) (s : State) : Sends 1 [] s (s.refuse r) := sends_nothing (lcdEffect_refuse r s) rfl

theorem sends_lcd {l : Display} {s : State} (h : l.simMode = s.lcd.simMode) : Sends 0 [] s { s with lcd := l } :=
  sends_nothing (lcdEffect_lcd h) rfl

theorem sends_transfer (rs : Bool) (b : Byte) (s : State) : Sends 0 [.byte rs b] s (transfer rs b s) := by
  rw [transfer_eq]
  exact ⟨lcdEffect_sent _ s, by simp [bytesEvents, piecesEvents, BusPiece.events]⟩

theorem sends_sendCommand (b : Byte) (s : State) : Sends 0 [.byte false b] s (sendCommand b s) := sends_transfer false b s

theorem sends_sendLong (b : Byte) (s : State) : Sends 0 [.long b] s (sendLong b s) :=
  ⟨lcdEffect_sendLong b s, by rw [sendLong_eq]; simp [bytesEvents, piecesEvents, BusPiece.events, cmdByte]⟩

/-- The pieces of a text: one data byte each (R198). -/
def textPieces (text : List Byte) : List BusPiece := text.map (.byte true)

theorem sends_sendText (text : List Byte) (s : State) : Sends 0 (textPieces text) s (sendText text s) := by
  refine ⟨lcdEffect_sendText text s, ?_⟩
  rw [sendText_eq]
  simp [bytesEvents, piecesEvents, textPieces, dataBytes, List.flatMap_map, BusPiece.events]

/-- The pieces of CreateCharBody (R241). -/
def glyphPieces (slot : Nat) (bitmap : List Byte) : List BusPiece :=
  [.byte false (slotByte slot)] ++ textPieces bitmap ++ [.byte false 0x80#8]

theorem sends_createCharBody (slot : Nat) (bitmap : List Byte) (s : State) :
    Sends 0 (glyphPieces slot bitmap) s (createCharBody slot bitmap s) := by
  have hsend := ((sends_sendCommand (slotByte slot) s).trans (sends_sendText bitmap _)).trans (sends_sendCommand 0x80#8 _)
  have hcount : Sends 0 [] (sendCommand 0x80#8 (sendText bitmap (sendCommand (slotByte slot) s)))
      (createCharBody slot bitmap s) := sends_lcd rfl
  simpa [glyphPieces] using hsend.trans hcount

theorem sends_createChars (n : Nat) (bitmaps : List Byte) (s : State) :
    Sends 0 ((List.range n).flatMap fun k => glyphPieces k (bitmapOf bitmaps k)) s (createChars n bitmaps s) := by
  induction n with
  | zero => exact sends_lcd (l := s.lcd) rfl
  | succ n ih =>
    rw [createChars_succ, List.range_succ, List.flatMap_append]
    simpa using ih.trans (sends_createCharBody n (bitmapOf bitmaps n) _)

/-! Bytes that ask for the execution wait only. -/

theorem settled_text (text : List Byte) : ∀ x ∈ textPieces text, x.Settled := by
  simp [textPieces, BusPiece.Settled]

theorem settled_cursor (col : Byte) (row : BitVec 2) : (BusPiece.byte false (cursorByte col row)).Settled := by
  have high : ∀ b : Byte, 4 ≤ (0x80#8 ||| b).toNat := by decide
  exact .inr (.inl (high _))

theorem settled_displayControl (f : DispCtl) : (BusPiece.byte false (displayControlByte f)).Settled := by
  have large : ∀ d c b, 4 ≤ (displayControlByte ⟨d, c, b⟩).toNat := by decide
  exact .inr (.inl (large f.d f.c f.b))

theorem settled_slot {slot : Nat} (h : slot < 8) : (BusPiece.byte false (slotByte slot)).Settled := by
  refine .inr (.inl ?_)
  rw [slotByte, BitVec.toNat_ofNat]
  omega

theorem settled_glyph {slot : Nat} (h : slot < 8) (bitmap : List Byte) : ∀ x ∈ glyphPieces slot bitmap, x.Settled := by
  have home : (BusPiece.byte false 0x80#8).Settled := .inr (.inl (by decide))
  simp only [glyphPieces, List.forall_mem_append, List.forall_mem_singleton]
  exact ⟨⟨settled_slot h, settled_text bitmap⟩, home⟩

/-! The display state. -/

/-- The writes to the display state that its commands make (R51 to R55), from which the scroll invariants and the count of
glyphs can be read. -/
inductive DisplayWrite (maxLen : Nat) (l : Display) : Instr → Display → Prop where
  | none (i : Instr) : DisplayWrite maxLen l i l
  | init : DisplayWrite maxLen l .lcdInit { l with dispCtl := ⟨true, false, false⟩, initialised := true }
  | toggle {i : Instr} (f : DispCtl)
      (hi : i ∈ [.lcdDisplayOn, .lcdDisplayOff, .lcdCursorOn, .lcdCursorOff, .lcdBlinkOn, .lcdBlinkOff]) :
    DisplayWrite maxLen l i { l with dispCtl := f }
  | static (row : Byte) (dir : Direction) (text : List Byte) (hinit : l.initialised = true) :
    DisplayWrite maxLen l (.lcdStartScroll row dir text) { l with
      scrollMode := .static, scrollText := [], scrollPosition := 0, scrollRow := rowIndex row, scrollDirection := dir }
  | scrolling (row : Byte) (dir : Direction) (text : List Byte) (hinit : l.initialised = true) (hlong : 16 < text.length)
      (hmax : text.length ≤ maxLen) :
    DisplayWrite maxLen l (.lcdStartScroll row dir text) { l with
      scrollMode := .scrolling, scrollText := text, scrollPosition := 0, scrollRow := rowIndex row, scrollDirection := dir }
  | stop : DisplayWrite maxLen l .lcdStopScroll { l with scrollMode := .idle, scrollText := [], scrollPosition := 0 }
  | advance (hm : l.scrollMode = .scrolling) : DisplayWrite maxLen l .lcdUpdateScroll { l with
      scrollPosition := nextPosition l.scrollDirection l.scrollText.length l.scrollPosition }
  | direction (dir : Direction) : DisplayWrite maxLen l (.lcdSetScrollDirection dir) { l with scrollDirection := dir }
  | glyph (slot : Byte) (bitmap : List Byte) (hinit : l.initialised = true) (hslot : slot.toNat < 8) :
    DisplayWrite maxLen l (.lcdCreateChar slot bitmap) { l with glyphCount := max l.glyphCount (slot.toNat + 1) }
  | glyphs (count : Byte) (bitmaps : List Byte) (hinit : l.initialised = true) (hcount : count.toNat ≤ 8) :
    DisplayWrite maxLen l (.lcdCreateChars count bitmaps) { l with glyphCount := max l.glyphCount count.toNat }

/-! The commands. -/

/-- What a CharDisplay command that is let run in the main flow does: its replies, its bytes on the bus, and its write to the
display state. Its bytes are settled but for a raw clear or home. -/
structure DisplayEffect (i : Instr) (l : List BusPiece) (s t : State) : Prop where
  sends : Sends 1 l s t
  settled : isRawLong i = false → ∀ x ∈ l, x.Settled
  writes : DisplayWrite s.cfg.maxScrollLen s.lcd i t.lcd

theorem displayEffect_refuse (i : Instr) (r : Reason) (s : State) : DisplayEffect i [] s (s.refuse r) :=
  ⟨sends_refuse r s, by simp, .none i⟩

/-- A body that sends its bytes and replies. -/
theorem displayEffect_reply {i : Instr} {l : List BusPiece} {s t : State} (v : Word) (h : Sends 0 l s t)
    (hl : isRawLong i = false → ∀ x ∈ l, x.Settled) (hw : DisplayWrite s.cfg.maxScrollLen s.lcd i t.lcd) :
    DisplayEffect i l s (t.reply v) :=
  ⟨by simpa using h.trans (sends_reply v t), hl, hw⟩

/-- A reply with no bus activity and the display state as it was. -/
theorem displayEffect_reply_only (i : Instr) (v : Word) (s : State) : DisplayEffect i [] s (s.reply v) :=
  displayEffect_reply v (sends_lcd (l := s.lcd) rfl) (by simp) (.none i)

/-- The outcomes of a CharDisplay command other than LCD_INIT: the fault of callback context, or an effect. -/
def DisplayOutcome (i : Instr) (s t : State) : Prop :=
  (s.clk.cbActive = true ∧ t = s.raise .callbackReentry)
    ∨ (s.clk.cbActive = false ∧ ∃ l, DisplayEffect i l s t)

theorem displayOutcome_main {i : Instr} {body : State → State} {s t : State} (h : mainFlowOnly body s = .next t)
    (hb : ∃ l, DisplayEffect i l s (body s)) : DisplayOutcome i s t := by
  rcases mainFlowOnly_cases h with hraise | ⟨hc, rfl⟩
  · exact .inl hraise
  · exact .inr ⟨hc, hb⟩

theorem displayOutcome_command {i : Instr} {body : State → State} {s t : State} (h : lcdCommandStep body s = .next t)
    (hb : s.lcd.initialised = true → ∃ l, DisplayEffect i l s (body s)) : DisplayOutcome i s t := by
  rcases lcdCommandStep_cases h with hraise | ⟨hc, _, rfl⟩ | ⟨hc, hi, rfl⟩
  · exact .inl hraise
  · exact .inr ⟨hc, _, displayEffect_refuse i _ s⟩
  · exact .inr ⟨hc, hb hi⟩

theorem displayEffect_lcdCommand (b : Byte) (s : State) :
    DisplayEffect (.lcdCommand b) [.byte false b] s (State.reply 0 (sendCommand b s)) := by
  refine displayEffect_reply 0 (sends_sendCommand b s) ?_ (by rw [sendCommand_eq]; exact .none _)
  have raw : ∀ b : Byte, isRawLong (.lcdCommand b) = false → 4 ≤ b.toNat ∨ b = 0 := by decide
  intro hraw x hx
  obtain rfl := List.mem_singleton.mp hx
  exact .inr (raw b hraw)

theorem displayEffect_data (i : Instr) (b : Byte) (s : State) :
    DisplayEffect i [.byte true b] s (State.reply 0 (sendData b s)) :=
  displayEffect_reply 0 (sends_transfer true b s) (fun _ => settled_text [b]) (by rw [sendData_eq]; exact .none i)

theorem displayEffect_text (i : Instr) (text : List Byte) (s : State) :
    DisplayEffect i (textPieces text) s (State.reply 0 (sendText text s)) :=
  displayEffect_reply 0 (sends_sendText text s) (fun _ => settled_text text) (by rw [sendText_eq]; exact .none i)

theorem displayEffect_long (i : Instr) {b : Byte} (hb : b = 0x01#8 ∨ b = 0x02#8) (s : State) :
    DisplayEffect i [.long b] s (State.reply 0 (sendLong b s)) :=
  displayEffect_reply 0 (sends_sendLong b s) (fun _ => by simpa [BusPiece.Settled] using hb)
    (by rw [sendLong_eq]; exact .none i)

theorem displayEffect_cursor (i : Instr) (col : Byte) (row : BitVec 2) (s : State) :
    DisplayEffect i [.byte false (cursorByte col row)] s (State.reply 0 (sendCommand (cursorByte col row) s)) :=
  displayEffect_reply 0 (sends_sendCommand _ s) (fun _ => by simpa using settled_cursor col row)
    (by rw [sendCommand_eq]; exact .none i)

theorem displayEffect_toggle {i : Instr}
    (hi : i ∈ [.lcdDisplayOn, .lcdDisplayOff, .lcdCursorOn, .lcdCursorOff, .lcdBlinkOn, .lcdBlinkOff]) (f : DispCtl)
    (s : State) : DisplayEffect i [.byte false (displayControlByte f)] s (toggle f s) := by
  have hshadow : Sends 0 [] s { s with lcd := { s.lcd with dispCtl := f } } := sends_lcd rfl
  refine displayEffect_reply 0 (hshadow.trans (sends_sendCommand (displayControlByte f) _)) (fun _ => ?_) ?_
  · simpa using settled_displayControl f
  · rw [sendCommand_eq]
    exact .toggle f hi

theorem displayEffect_static (row : Byte) (dir : Direction) (text : List Byte) {s : State}
    (hinit : s.lcd.initialised = true) :
    ∃ l, DisplayEffect (.lcdStartScroll row dir text) l s (State.reply 0 (startStatic (rowIndex row) dir text s)) := by
  have hdraw := ((sends_sendLong 0x01#8 s).trans
    (sends_sendCommand (cursorByte (centreCol text.length) (rowIndex row)) _)).trans (sends_sendText text _)
  have hstate : Sends 0 [] (renderCentred (rowIndex row) text s) (startStatic (rowIndex row) dir text s) := by
    refine sends_lcd ?_
    rfl
  refine ⟨_, displayEffect_reply 0 (hdraw.trans hstate) (fun _ => ?_) ?_⟩
  · simp only [List.forall_mem_append, List.forall_mem_singleton, List.not_mem_nil, false_implies, implies_true, and_true]
    exact ⟨⟨.inl rfl, settled_cursor _ _⟩, settled_text text⟩
  · have hlcd : (renderCentred (rowIndex row) text s).lcd = s.lcd := by
      simp [renderCentred, sendText_eq, sendCommand_eq, sendLong_eq]
    rw [startStatic, hlcd]
    exact .static row dir text hinit

theorem displayEffect_startScroll (row : Byte) (dir : Direction) (text : List Byte) {s : State}
    (hinit : s.lcd.initialised = true) :
    ∃ l, DisplayEffect (.lcdStartScroll row dir text) l s
      (if rowInRange row then
        if s.cfg.maxScrollLen < text.length then s.refuse .badPayload
        else if text.length ≤ Config.lcdCols then State.reply 0 (startStatic (rowIndex row) dir text s)
        else State.reply 0 (startScrolling (rowIndex row) dir text s)
      else s.refuse .operandRange) := by
  split
  · split
    · exact ⟨_, displayEffect_refuse _ _ s⟩
    · split
      · exact displayEffect_static row dir text hinit
      · next hmax hlong =>
        have hstate : Sends 0 [] s (startScrolling (rowIndex row) dir text s) := sends_lcd rfl
        exact ⟨_, displayEffect_reply 0 hstate (by simp)
          (.scrolling row dir text hinit (Nat.lt_of_not_le hlong) (Nat.le_of_not_lt hmax))⟩
  · exact ⟨_, displayEffect_refuse _ _ s⟩

theorem displayEffect_render {s : State} (hm : s.lcd.scrollMode = .scrolling) :
    ∃ l, DisplayEffect .lcdUpdateScroll l s (State.reply 0 (renderWindow s)) := by
  have hdraw := (sends_sendCommand (cursorByte 0 s.lcd.scrollRow) s).trans
    (sends_sendText (windowBytes s.lcd.scrollText s.lcd.scrollPosition) _)
  have hadvance : Sends 0 [] (sendText (windowBytes s.lcd.scrollText s.lcd.scrollPosition)
      (sendCommand (cursorByte 0 s.lcd.scrollRow) s)) (renderWindow s) := by
    unfold renderWindow
    generalize sendText _ (sendCommand (cursorByte 0 s.lcd.scrollRow) s) = t
    exact sends_lcd rfl
  refine ⟨_, displayEffect_reply 0 (hdraw.trans hadvance) (fun _ => ?_) ?_⟩
  · simp only [List.forall_mem_append, List.forall_mem_singleton, List.not_mem_nil, false_implies, implies_true, and_true]
    exact ⟨settled_cursor _ _, settled_text _⟩
  · rw [renderWindow_lcd]
    exact .advance hm

theorem displayEffect_createChar (slot : Byte) (bitmap : List Byte) {s : State} (hinit : s.lcd.initialised = true)
    (hslot : slot.toNat < 8) : DisplayEffect (.lcdCreateChar slot bitmap) (glyphPieces slot.toNat bitmap) s
      (State.reply 1 (createCharBody slot.toNat bitmap s)) := by
  refine displayEffect_reply 1 (sends_createCharBody _ _ s) (fun _ => settled_glyph hslot bitmap) ?_
  rw [createCharBody_eq]
  exact .glyph slot bitmap hinit hslot

theorem displayEffect_createChars (count : Byte) (bitmaps : List Byte) {s : State} (hinit : s.lcd.initialised = true)
    (hcount : count.toNat ≤ 8) : DisplayEffect (.lcdCreateChars count bitmaps)
      ((List.range count.toNat).flatMap fun k => glyphPieces k (bitmapOf bitmaps k)) s
      (State.reply 1 (createChars count.toNat bitmaps s)) := by
  refine displayEffect_reply 1 (sends_createChars _ _ s) (fun _ x hx => ?_) ?_
  · obtain ⟨k, hk, hx⟩ := List.mem_flatMap.mp hx
    have hk8 : k < 8 := Nat.lt_of_lt_of_le (List.mem_range.mp hk) hcount
    exact settled_glyph hk8 _ x hx
  · rw [createChars_lcd]
    exact .glyphs count bitmaps hinit hcount

/-- All that a CharDisplay command other than LCD_INIT can do. -/
theorem exec_display {i : Instr} {s t : State} (hp : partOf i = .display) (hi : i ≠ .lcdInit) (h : exec i s = .next t) :
    DisplayOutcome i s t := by
  cases i with
  | lcdInit => exact absurd rfl hi
  | lcdCommand b =>
    rw [exec, execLcdCommand] at h
    exact displayOutcome_command h fun _ => ⟨_, displayEffect_lcdCommand b s⟩
  | lcdWriteChar b =>
    rw [exec, execLcdWriteChar] at h
    exact displayOutcome_command h fun _ => ⟨_, displayEffect_data _ b s⟩
  | lcdPrint text =>
    rw [exec, execLcdPrint] at h
    refine displayOutcome_command h fun _ => ?_
    split
    · exact ⟨_, displayEffect_refuse _ _ s⟩
    · exact ⟨_, displayEffect_text _ text s⟩
  | lcdClear =>
    rw [exec, execLcdClear] at h
    exact displayOutcome_command h fun _ => ⟨_, displayEffect_long _ (.inl rfl) s⟩
  | lcdHome =>
    rw [exec, execLcdHome] at h
    exact displayOutcome_command h fun _ => ⟨_, displayEffect_long _ (.inr rfl) s⟩
  | lcdSetCursor col row =>
    rw [exec, execLcdSetCursor] at h
    refine displayOutcome_command h fun _ => ?_
    split
    · exact ⟨_, displayEffect_cursor _ col (rowIndex row) s⟩
    · exact ⟨_, displayEffect_refuse _ _ s⟩
  | lcdDisplayOn =>
    rw [exec, execLcdDisplayOn] at h
    exact displayOutcome_command h fun _ => ⟨_, displayEffect_toggle (by simp) _ s⟩
  | lcdDisplayOff =>
    rw [exec, execLcdDisplayOff] at h
    exact displayOutcome_command h fun _ => ⟨_, displayEffect_toggle (by simp) _ s⟩
  | lcdCursorOn =>
    rw [exec, execLcdCursorOn] at h
    exact displayOutcome_command h fun _ => ⟨_, displayEffect_toggle (by simp) _ s⟩
  | lcdCursorOff =>
    rw [exec, execLcdCursorOff] at h
    exact displayOutcome_command h fun _ => ⟨_, displayEffect_toggle (by simp) _ s⟩
  | lcdBlinkOn =>
    rw [exec, execLcdBlinkOn] at h
    exact displayOutcome_command h fun _ => ⟨_, displayEffect_toggle (by simp) _ s⟩
  | lcdBlinkOff =>
    rw [exec, execLcdBlinkOff] at h
    exact displayOutcome_command h fun _ => ⟨_, displayEffect_toggle (by simp) _ s⟩
  | lcdStartScroll row dir text =>
    rw [exec, execLcdStartScroll] at h
    exact displayOutcome_command h fun hinit => displayEffect_startScroll row dir text hinit
  | lcdStopScroll =>
    rw [exec, execLcdStopScroll] at h
    exact displayOutcome_command h fun _ => ⟨_, displayEffect_reply 0 (sends_lcd rfl) (by simp) .stop⟩
  | lcdUpdateScroll =>
    rw [exec, execLcdUpdateScroll] at h
    refine displayOutcome_command h fun _ => ?_
    cases hm : s.lcd.scrollMode with
    | scrolling => exact displayEffect_render hm
    | idle | static => exact ⟨_, displayEffect_reply_only _ 0 s⟩
  | lcdSetScrollDirection dir =>
    rw [exec, execLcdSetScrollDirection] at h
    exact displayOutcome_command h fun _ => ⟨_, displayEffect_reply 0 (sends_lcd rfl) (by simp) (.direction dir)⟩
  | lcdIsScrolling =>
    rw [exec, execLcdIsScrolling] at h
    exact displayOutcome_main h ⟨_, displayEffect_reply_only _ _ s⟩
  | lcdGetScrollPosition =>
    rw [exec, execLcdGetScrollPosition] at h
    exact displayOutcome_main h ⟨_, displayEffect_reply_only _ _ s⟩
  | lcdCreateChar slot bitmap =>
    rw [exec, execLcdCreateChar] at h
    refine displayOutcome_command h fun hinit => ?_
    split
    · split
      · next hslot => exact ⟨_, displayEffect_createChar slot bitmap hinit (of_decide_eq_true hslot)⟩
      · exact ⟨_, displayEffect_reply_only _ 0 s⟩
    · exact ⟨_, displayEffect_refuse _ _ s⟩
  | lcdCreateChars count bitmaps =>
    rw [exec, execLcdCreateChars] at h
    refine displayOutcome_command h fun hinit => ?_
    split
    · exact ⟨_, displayEffect_reply_only _ 0 s⟩
    · split
      · next hcount _ => exact ⟨_, displayEffect_createChars count bitmaps hinit (Nat.le_of_not_lt hcount)⟩
      · exact ⟨_, displayEffect_refuse _ _ s⟩
  | lcdWriteCustomChar slot =>
    rw [exec, execLcdWriteCustomChar] at h
    refine displayOutcome_command h fun _ => ?_
    split
    · exact ⟨_, displayEffect_data _ slot s⟩
    · exact ⟨_, displayEffect_reply_only _ 0 s⟩
  | _ => cases hp

/-! LCD_INIT. -/

theorem lcdEffect_setupCommands (s : State) : LcdEffect 0 s (setupCommands s) :=
  (((lcdEffect_sendCommand 0x28#8 s).trans (lcdEffect_sendCommand 0x0C#8 _)).trans
    (lcdEffect_sendCommand 0x06#8 _)).trans (lcdEffect_sendLong 0x01#8 _)

/-- The four set-up bytes in closed form (R195). -/
theorem setupCommands_eq (s : State) : setupCommands s = { s with
    trace := s.trace ++ (byteEvents s.mode false 0x28#8 ++ byteEvents s.mode false 0x0C#8 ++ byteEvents s.mode false 0x06#8
      ++ byteEvents s.mode false 0x01#8 ++ [.wait .long])
    pin := s.pin.afterByte false 0x01#8 } := by
  simp only [setupCommands, sendLong_eq, sendCommand_eq, sent_sent]
  simp [State.sent, State.wait, State.emit, bytesEvents, Pins.afterBytes, cmdByte, State.mode]

/-- LCD_INIT's body in closed form: the 136 events and the pins after the last nibble (R195). -/
theorem initSequence_eq (s : State) : setupCommands (wakeSequence s) = { s with
    trace := s.trace ++ initEvents s.mode
    pin := { s.pin with rs := .low, e := .low, d4 := .high, d5 := .low, d6 := .low, d7 := .low } } := by
  rw [setupCommands_eq, wakeSequence_eq]
  simp [initEvents, State.mode, Pins.afterByte, Pins.afterNibble, Level.ofBit]

/-- What LCD_INIT leaves when it runs (R195). -/
def initialisedState (s : State) : State := State.reply 0 { s with
  trace := s.trace ++ initEvents s.mode
  pin := { s.pin with rs := .low, e := .low, d4 := .high, d5 := .low, d6 := .low, d7 := .low }
  lcd := { s.lcd with dispCtl := ⟨true, false, false⟩, initialised := true } }

theorem lcdInit_first {s : State} (hc : s.clk.cbActive = false) (hi : s.lcd.initialised = false) :
    exec .lcdInit s = .next (initialisedState s) := by
  rw [exec, execLcdInit, mainFlowOnly_main hc, hi, onceOnly_first, initSequence_eq, initialisedState]

theorem lcdInit_again {s : State} (hc : s.clk.cbActive = false) (hi : s.lcd.initialised = true) :
    exec .lcdInit s = .next (s.refuse .reInit) := by
  rw [exec, execLcdInit, mainFlowOnly_main hc, hi, onceOnly_again]

theorem lcdInit_callback {s : State} (hc : s.clk.cbActive = true) :
    exec .lcdInit s = .next (s.raise .callbackReentry) := by
  rw [exec, execLcdInit, mainFlowOnly_callback hc]

theorem lcdEffect_initialisedState (s : State) : LcdEffect 1 s (initialisedState s) := by
  have hpins : LcdEffect 0 s { s with
      pin := { s.pin with rs := .low, e := .low, d4 := .high, d5 := .low, d6 := .low, d7 := .low }
      trace := s.trace ++ initEvents s.mode } := lcdEffect_pins rfl (by simp)
  exact (hpins.trans (lcdEffect_lcd (l := { s.lcd with dispCtl := ⟨true, false, false⟩, initialised := true }) rfl)).trans
    (lcdEffect_reply 0 _)

/-- All that LCD_INIT can do. -/
theorem exec_lcdInit {s t : State} (h : exec .lcdInit s = .next t) :
    (s.clk.cbActive = true ∧ t = s.raise .callbackReentry)
      ∨ (s.clk.cbActive = false ∧ s.lcd.initialised = true ∧ t = s.refuse .reInit)
      ∨ (s.clk.cbActive = false ∧ s.lcd.initialised = false ∧ t = initialisedState s) := by
  cases hc : s.clk.cbActive with
  | true => rw [lcdInit_callback hc] at h; cases h; exact .inl ⟨rfl, rfl⟩
  | false =>
    cases hi : s.lcd.initialised with
    | true => rw [lcdInit_again hc hi] at h; cases h; exact .inr (.inl ⟨rfl, rfl, rfl⟩)
    | false => rw [lcdInit_first hc hi] at h; cases h; exact .inr (.inr ⟨rfl, rfl, rfl⟩)

/-- What every CharDisplay command, LCD_INIT among them, can touch. -/
theorem exec_display_effect {i : Instr} {s t : State} (hp : partOf i = .display) (h : exec i s = .next t) :
    (s.clk.cbActive = true ∧ t = s.raise .callbackReentry)
      ∨ (s.clk.cbActive = false ∧ LcdEffect 1 s t ∧ DisplayWrite s.cfg.maxScrollLen s.lcd i t.lcd) := by
  by_cases hi : i = .lcdInit
  · subst hi
    rcases exec_lcdInit h with hraise | ⟨hc, _, rfl⟩ | ⟨hc, _, rfl⟩
    · exact .inl hraise
    · exact .inr ⟨hc, lcdEffect_refuse _ s, .none _⟩
    · exact .inr ⟨hc, lcdEffect_initialisedState s, .init⟩
  · rcases exec_display hp hi h with hraise | ⟨hc, _, he⟩
    · exact .inl hraise
    · exact .inr ⟨hc, he.sends.effect, he.writes⟩

/-! The micro-operations and the bus encodings. -/

theorem lcdEffect_nibble (v : Byte) (s : State) : LcdEffect 0 s (nibble v s) := by
  rw [nibble_eq v (v.extractLsb' 0 4) s fun i hi => by simp [hi]]
  exact lcdEffect_pins rfl (by simp [Pins.afterNibble])

theorem pulse_eq (s : State) : pulse s =
    { s with trace := s.trace ++ pulseEvents s.mode, pin := { s.pin with e := .low } } := by
  simp [pulse, State.out, State.emit, State.wait, Pins.drive, Level.ofBit, pulseEvents, State.mode]

theorem lcdEffect_pulse (s : State) : LcdEffect 0 s (pulse s) := by
  rw [pulse_eq]
  exact lcdEffect_pins rfl (by simp)

/-- All that a micro-operation or a bus encoding run alone can do. -/
theorem exec_bus {i : Instr} {s t : State} (hp : partOf i = .bus) (h : exec i s = .next t) :
    LcdEffect 0 s t ∧ t.lcd = s.lcd := by
  have byte : ∀ rs b, LcdEffect 0 s (transfer rs b s) ∧ (transfer rs b s).lcd = s.lcd := fun rs b =>
    ⟨(sends_transfer rs b s).effect, by rw [transfer_eq]; rfl⟩
  cases i with
  | pulseEnable => cases h; exact ⟨lcdEffect_pulse s, by rw [pulse_eq]⟩
  | sendNibble v => cases h; exact ⟨lcdEffect_nibble v s, nibble_lcd v s⟩
  | busWakeNibble => cases h; exact ⟨lcdEffect_loneNibble _ s, loneNibble_lcd _ s⟩
  | bus4BitNibble => cases h; exact ⟨lcdEffect_loneNibble _ s, loneNibble_lcd _ s⟩
  | sendByte | command | writeChar | busClearDisplay | busReturnHome | busEntryModeSet | busDisplayControl
  | busFunctionSet | busSetCgramAddr | busSetDdramAddr | busDataWrite => cases h; exact byte _ _
  | _ => cases hp

end Sys2Proof.Proofs

/-! PROOFS. What every instruction and every step keeps: the agent events and the turns of the agents said once, then the
frames of the sub-blocks (R89, R209), the writers of each field (R32 to R55), the records that only grow (R57, R263, R264),
and the invariant. -/

namespace Sys2Proof.Proofs

open Sys2Proof Sys2Proof.Machine

/-! The agent events. -/

/-- All that the tick handler can do: nothing while stopped, TickOverrun while a callback is active, else the count and the
callback (R136, R270). -/
theorem exec_evTick {s t : State} (h : exec .evTick s = .next t) :
    (s.clk.running = false ∧ t = s) ∨ (s.clk.running = true ∧ s.clk.cbActive = true ∧ t = s.raise .tickOverrun)
      ∨ (s.clk.running = true ∧ s.clk.cbActive = false ∧ t = countTick s) := by
  rw [exec, execEvTick] at h
  cases hr : s.clk.running <;> cases hc : s.clk.cbActive <;> simp_all

/-! Frames. -/

/-- A Clock command leaves the inputs and all but the Clock, the faults and the port's records alone. -/
theorem exec_clock_frame {i : Instr} {s t : State} (hp : partOf i = .clock) (h : exec i s = .next t) :
    t.env = s.env ∧ t.cfg = s.cfg ∧ t.sched = s.sched ∧ t.cmd = s.cmd ∧ t.cbCmd = s.cbCmd ∧ t.issued = s.issued
      ∧ t.kp = s.kp ∧ t.lcd = s.lcd ∧ t.pin = s.pin ∧ t.trace = s.trace ∧ t.timeSamples = s.timeSamples := by
  rcases exec_clock hp h with ⟨_, rfl⟩ | hans
  · simp
  · cases hans <;> simp

/-- A KeyScanner command leaves the inputs, the Clock, the display and the LCD pins alone. -/
theorem exec_keypad_frame {i : Instr} {s t : State} (hp : partOf i = .keypad) (h : exec i s = .next t) :
    t.env = s.env ∧ t.cfg = s.cfg ∧ t.sched = s.sched ∧ t.cmd = s.cmd ∧ t.cbCmd = s.cbCmd ∧ t.issued = s.issued
      ∧ t.clk = s.clk ∧ t.lcd = s.lcd ∧ t.pin = { s.pin with row := t.pin.row } := by
  rcases exec_keypad hp h with ⟨_, rfl⟩ | ⟨_, hans⟩
  · simp
  · cases hans <;> simp

/-- A CharDisplay command leaves the inputs, the Clock, the keypad, the row pins and the time samples alone. -/
theorem exec_display_frame {i : Instr} {s t : State} (hp : partOf i = .display) (h : exec i s = .next t) :
    t.env = s.env ∧ t.cfg = s.cfg ∧ t.sched = s.sched ∧ t.cmd = s.cmd ∧ t.cbCmd = s.cbCmd ∧ t.issued = s.issued
      ∧ t.clk = s.clk ∧ t.kp = s.kp ∧ t.pin.row = s.pin.row ∧ t.timeSamples = s.timeSamples := by
  rcases exec_display_effect hp h with ⟨_, rfl⟩ | ⟨_, he, _⟩
  · simp
  · exact ⟨he.env, he.cfg, he.sched, he.cmd, he.cbCmd, he.issued, he.clk, he.kp, he.rows, he.timeSamples⟩

/-- Settles O55: the OP tells the part, and each part's commands have their frame. -/
theorem subBlocksAreIndependent : Obligations.SubBlocksAreIndependent := by
  unfold Obligations.SubBlocksAreIndependent
  intro i op s t hop h
  rcases partOf_of_commandOp hop with ⟨hp, _⟩ | ⟨hp, _, _⟩ | ⟨hp, _, _⟩
  · obtain ⟨henv, hcfg, hsched, hcmd, hcb, hissued, hrest⟩ := exec_clock_frame hp h
    exact ⟨henv, hcfg, hsched, hcmd, hcb, hissued, fun _ => hrest, by omega, by omega⟩
  · obtain ⟨henv, hcfg, hsched, hcmd, hcb, hissued, hrest⟩ := exec_keypad_frame hp h
    exact ⟨henv, hcfg, hsched, hcmd, hcb, hissued, by omega, fun _ => hrest, by omega⟩
  · obtain ⟨henv, hcfg, hsched, hcmd, hcb, hissued, hrest⟩ := exec_display_frame hp h
    exact ⟨henv, hcfg, hsched, hcmd, hcb, hissued, by omega, by omega, fun _ => hrest⟩

/-! The writers of each field. -/

/-- The writes to the Clock by any instruction. -/
theorem exec_writes_clock {i : Instr} {s t : State} (h : exec i s = .next t) :
    ClockWrite s.clk i t.clk ∨ (i = .evTick ∧ t.clk = { s.clk with
        halfSecondPhase := t.clk.halfSecondPhase, secondsElapsed := t.clk.secondsElapsed, cbActive := t.clk.cbActive })
      ∨ (i = .evCbDone ∧ t.clk = { s.clk with cbActive := false }) := by
  cases hp : partOf i with
  | clock =>
    rcases exec_clock hp h with ⟨_, rfl⟩ | hans
    · exact .inl (.none i)
    · cases hans with
      | refuse r => exact .inl (.none i)
      | reply v hw hk => exact .inl hw
  | keypad =>
    obtain ⟨_, _, _, _, _, _, hclk, _⟩ := exec_keypad_frame hp h
    rw [hclk]; exact .inl (.none i)
  | display =>
    obtain ⟨_, _, _, _, _, _, hclk, _⟩ := exec_display_frame hp h
    rw [hclk]; exact .inl (.none i)
  | bus =>
    rw [(exec_bus hp h).1.clk]; exact .inl (.none i)
  | agent =>
    cases i with
    | evTick =>
      refine .inr (.inl ⟨rfl, ?_⟩)
      rcases exec_evTick h with ⟨_, rfl⟩ | ⟨_, _, rfl⟩ | ⟨_, _, rfl⟩
      · rfl
      · rfl
      · rw [countTick_eq]
    | evPinchange => cases h; exact .inl (.none _)
    | evCbDone => cases h; exact .inr (.inr ⟨rfl, rfl⟩)
    | _ => cases hp

/-- Of the instructions only KPD_INIT, KPD_GET_KEY and EV_PINCHANGE write the KeyScanner's state. -/
theorem exec_keeps_keypad {i : Instr} {s t : State} (h : exec i s = .next t) (hinit : i ≠ .kpdInit) (hget : i ≠ .kpdGetKey)
    (hpin : i ≠ .evPinchange) : t.kp = s.kp ∧ t.timeSamples = s.timeSamples := by
  cases hp : partOf i with
  | clock =>
    obtain ⟨_, _, _, _, _, _, hkp, _, _, _, hts⟩ := exec_clock_frame hp h
    exact ⟨hkp, hts⟩
  | keypad =>
    rcases exec_keypad hp h with ⟨_, rfl⟩ | ⟨_, hans⟩
    · exact ⟨rfl, rfl⟩
    · cases hans with
      | refuse => exact ⟨rfl, rfl⟩
      | status => exact ⟨rfl, rfl⟩
      | init => exact absurd rfl hinit
      | rejected | switched | resumed => exact absurd rfl hget
  | display =>
    obtain ⟨_, _, _, _, _, _, _, hkp, _, hts⟩ := exec_display_frame hp h
    exact ⟨hkp, hts⟩
  | bus => exact ⟨(exec_bus hp h).1.kp, (exec_bus hp h).1.timeSamples⟩
  | agent =>
    cases i with
    | evTick =>
      rcases exec_evTick h with ⟨_, rfl⟩ | ⟨_, _, rfl⟩ | ⟨_, _, rfl⟩
      · exact ⟨rfl, rfl⟩
      · exact ⟨rfl, rfl⟩
      · rw [countTick_eq]; exact ⟨rfl, rfl⟩
    | evPinchange => exact absurd rfl hpin
    | evCbDone => cases h; exact ⟨rfl, rfl⟩
    | _ => cases hp

/-- The writes to the display state by any instruction. -/
theorem exec_writes_display {i : Instr} {s t : State} (h : exec i s = .next t) :
    DisplayWrite s.cfg.maxScrollLen s.lcd i t.lcd := by
  cases hp : partOf i with
  | clock =>
    obtain ⟨_, _, _, _, _, _, _, hlcd, _⟩ := exec_clock_frame hp h
    rw [hlcd]; exact .none i
  | keypad =>
    obtain ⟨_, _, _, _, _, _, _, hlcd, _⟩ := exec_keypad_frame hp h
    rw [hlcd]; exact .none i
  | display =>
    rcases exec_display_effect hp h with ⟨_, rfl⟩ | ⟨_, _, hw⟩
    · exact .none i
    · exact hw
  | bus => rw [(exec_bus hp h).2]; exact .none i
  | agent =>
    cases i with
    | evTick =>
      rcases exec_evTick h with ⟨_, rfl⟩ | ⟨_, _, rfl⟩ | ⟨_, _, rfl⟩
      · exact .none _
      · exact .none _
      · rw [countTick_eq]; exact .none _
    | evPinchange => cases h; exact .none _
    | evCbDone => cases h; exact .none _
    | _ => cases hp

theorem clock_writers {i : Instr} {s t : State} (h : exec i s = .next t) :
    (i ≠ .evTick → i ≠ .clkReset →
      t.clk.secondsElapsed = s.clk.secondsElapsed ∧ t.clk.halfSecondPhase = s.clk.halfSecondPhase)
    ∧ (i ≠ .clkStart → i ≠ .clkStop → t.clk.running = s.clk.running)
    ∧ (i ≠ .clkConfigure → t.clk.configured = s.clk.configured)
    ∧ ((∀ h, i ≠ .clkSetTickCallback h) → t.clk.callback = s.clk.callback)
    ∧ (i ≠ .evTick → i ≠ .evCbDone → t.clk.cbActive = s.clk.cbActive) := by
  rcases exec_writes_clock h with hw | ⟨rfl, ht⟩ | ⟨rfl, ht⟩
  · generalize t.clk = k at hw
    cases hw <;> simp
  · rw [ht]; simp
  · rw [ht]; simp

theorem keypad_writers {i : Instr} {s t : State} (h : exec i s = .next t) :
    (i ≠ .kpdGetKey → t.kp.currentRow = s.kp.currentRow ∧ t.kp.gkPhase = s.kp.gkPhase ∧ t.kp.gkTime = s.kp.gkTime
        ∧ t.kp.lastDebounceTimestamp = s.kp.lastDebounceTimestamp ∧ t.timeSamples = s.timeSamples)
    ∧ (i ≠ .kpdGetKey → i ≠ .evPinchange → t.kp.keyDetectedFlag = s.kp.keyDetectedFlag)
    ∧ (i ≠ .kpdInit → t.kp.initialised = s.kp.initialised)
    ∧ (i ≠ .kpdInit → i ≠ .kpdGetKey → i ≠ .evPinchange → t.kp.pcPending = s.kp.pcPending) := by
  by_cases hpin : i = .evPinchange
  · subst hpin; cases h; simp
  by_cases hscan : i = .kpdInit ∨ i = .kpdGetKey
  · have hp : partOf i = .keypad := by rcases hscan with rfl | rfl <;> rfl
    rcases exec_keypad hp h with ⟨_, rfl⟩ | ⟨_, hans⟩
    · simp
    · cases hans <;> simp
  · obtain ⟨hinit, hget⟩ := not_or.mp hscan
    obtain ⟨hkp, hts⟩ := exec_keeps_keypad h hinit hget hpin
    simp [hkp, hts]

theorem display_writers {i : Instr} {s t : State} (h : exec i s = .next t) :
    t.lcd.simMode = s.lcd.simMode
    ∧ (i ≠ .lcdInit → t.lcd.initialised = s.lcd.initialised)
    ∧ (i ∉ [.lcdInit, .lcdDisplayOn, .lcdDisplayOff, .lcdCursorOn, .lcdCursorOff, .lcdBlinkOn, .lcdBlinkOff] →
        t.lcd.dispCtl = s.lcd.dispCtl)
    ∧ ((∀ r d x, i ≠ .lcdStartScroll r d x) → i ≠ .lcdStopScroll →
        t.lcd.scrollMode = s.lcd.scrollMode ∧ t.lcd.scrollText = s.lcd.scrollText)
    ∧ ((∀ r d x, i ≠ .lcdStartScroll r d x) → t.lcd.scrollRow = s.lcd.scrollRow)
    ∧ ((∀ r d x, i ≠ .lcdStartScroll r d x) → i ≠ .lcdStopScroll → i ≠ .lcdUpdateScroll →
        t.lcd.scrollPosition = s.lcd.scrollPosition)
    ∧ ((∀ r d x, i ≠ .lcdStartScroll r d x) → (∀ d, i ≠ .lcdSetScrollDirection d) →
        t.lcd.scrollDirection = s.lcd.scrollDirection)
    ∧ ((∀ n x, i ≠ .lcdCreateChar n x) → (∀ n x, i ≠ .lcdCreateChars n x) → t.lcd.glyphCount = s.lcd.glyphCount) := by
  have hw := exec_writes_display h
  generalize t.lcd = l at hw
  cases hw with
  | toggle f hi =>
    have hmem := List.mem_cons_of_mem Instr.lcdInit hi
    exact ⟨rfl, fun _ => rfl, fun hn => absurd hmem hn, fun _ _ => ⟨rfl, rfl⟩, fun _ => rfl, fun _ _ _ => rfl,
      fun _ _ => rfl, fun _ _ => rfl⟩
  | _ => simp

/-- Settles O56: each part's state has its list of writes. -/
theorem fieldsHaveTheirWriters : Obligations.FieldsHaveTheirWriters := by
  unfold Obligations.FieldsHaveTheirWriters
  intro i s t h
  obtain ⟨hcount, hrunning, hconfigured, hcallback, hactive⟩ := clock_writers h
  obtain ⟨hrow, hflag, hinit, hpending⟩ := keypad_writers h
  exact ⟨hcount, hrunning, hconfigured, hcallback, hactive, hrow, hflag, hinit, hpending, display_writers h⟩

end Sys2Proof.Proofs

/-! PROOFS. A step, said once: the turn of the agent at the head of the schedule (R81, R263). From it what only grows (R57,
R263, R264, R59), and the invariant. -/

namespace Sys2Proof.Proofs

open Sys2Proof Sys2Proof.Machine

/-! Turns. -/

/-- s with a command recorded as issued (R20). -/
def recordIssue (c : Command) (s : State) : State := { s with issued := s.issued ++ [(s.context, c)] }

/-- All that issuing a command can do: it is refused by the decoder, or the instruction it decodes to runs. -/
theorem issue_cases {c : Command} {s t : State} (h : issue c s = .next t) :
    (∃ r, t = (recordIssue c s).refuse r) ∨ ∃ i, decodeHost c = .ok i ∧ exec i (recordIssue c s) = .next t := by
  cases hd : decodeHost c with
  | ok i => simp only [issue, hd] at h; exact .inr ⟨i, rfl, h⟩
  | error r => simp only [issue, hd] at h; cases h; exact .inl ⟨r, rfl⟩

/-- What an agent's turn does with the state, its entry taken from the schedule: nothing where it is not enabled or has no
command (log 2), else its step. -/
inductive Turn (s : State) : Choice → State → Prop where
  | idle (c : Choice) : Turn s c s
  | issue {c : Command} {rest : List Command} {t : State} (hmain : s.clk.cbActive = false) (hphase : s.kp.gkPhase = .idle)
      (h : issue c { s with cmd := rest } = .next t) : Turn s .host t
  | resume {t : State} (hphase : s.kp.gkPhase = .switched) (hmain : s.clk.cbActive = false)
      (h : exec .kpdGetKey s = .next t) : Turn s .host t
  | callbackIssue {c : Command} {rest : List Command} {t : State} (hactive : s.clk.cbActive = true)
      (h : Machine.issue c { s with cbCmd := rest } = .next t) : Turn s .cb t
  | tick {t : State} (hon : s.tickEnabled = true) (h : exec .evTick s = .next t) : Turn s .tick t
  | pinChange {t : State} (hon : s.pinChangeEnabled = true) (h : exec .evPinchange s = .next t) : Turn s .pinChange t
  | cbDone {t : State} (h : exec .evCbDone s = .next t) : Turn s .cbDone t
  | press (keys : Grid Bool) : Turn s (.press keys) (pressKeys keys s)
  | passTime (ms : Nat) : Turn s (.passTime ms) (passTime ms s)
  | bus {x : BusTransfer} {i : Instr} {t : State} (hd : decodeBus x = .ok i) (h : exec i s = .next t) : Turn s (.bus x) t

theorem turn_host {s t : State} (h : hostTurn s = .next t) : Turn s .host t := by
  unfold hostTurn at h
  split at h
  · next hon =>
    have hmain : s.clk.cbActive = false := by simpa [State.hostEnabled] using hon
    split at h
    · next hphase => exact .resume hphase hmain h
    · next hphase =>
      split at h
      · cases h; exact .idle _
      · exact .issue hmain hphase h
  · cases h; exact .idle _

theorem turn_cb {s t : State} (h : cbTurn s = .next t) : Turn s .cb t := by
  unfold cbTurn at h
  split at h
  · next hon =>
    split at h
    · cases h; exact .idle _
    · exact .callbackIssue hon h
  · cases h; exact .idle _

theorem turn_bus {x : BusTransfer} {s t : State} (h : busTurn x s = .next t) : Turn s (.bus x) t := by
  unfold busTurn at h
  split at h
  · next hd => exact .bus hd h
  · cases h

theorem turn_of_takeTurn {c : Choice} {s t : State} (h : takeTurn c s = .next t) : Turn s c t := by
  cases c with
  | host => exact turn_host h
  | cb => exact turn_cb h
  | bus x => exact turn_bus h
  | press keys => cases h; exact .press keys
  | passTime ms => cases h; exact .passTime ms
  | tick =>
    simp only [takeTurn, tickTurn] at h
    split at h
    · next hon => exact .tick hon h
    · cases h; exact .idle _
  | pinChange =>
    simp only [takeTurn, pinChangeTurn] at h
    split at h
    · next hon => exact .pinChange hon h
    · cases h; exact .idle _
  | cbDone =>
    simp only [takeTurn, cbDoneTurn] at h
    split at h
    · exact .cbDone h
    · cases h; exact .idle _

/-- All that a step can do: no fault is recorded, and the schedule is empty or the agent at its head takes its turn. -/
theorem step_cases {s t : State} (h : step s = .next t) : s.faulted = false ∧
    ((s.sched = [] ∧ t = s) ∨ ∃ c rest, s.sched = c :: rest ∧ Turn { s with sched := rest } c t) := by
  have hf : s.faulted = false := step_next_unfaulted h
  refine ⟨hf, ?_⟩
  cases hs : s.sched with
  | nil => simp only [step, stepState, hf, hs] at h; cases h; exact .inl ⟨rfl, rfl⟩
  | cons c rest =>
    rw [step_turn hf hs] at h
    exact .inr ⟨c, rest, rfl, turn_of_takeTurn h⟩

/-! Records that only grow. -/

/-- From s to t no mark is cleared, the records grow, the configuration is fixed and time does not go back. -/
structure Grows (s t : State) : Prop where
  refused : s.refused = true → t.refused = true
  trace : s.trace <+: t.trace
  timeSamples : s.timeSamples <+: t.timeSamples
  issued : s.issued <+: t.issued
  replies : s.replies <+: t.replies
  cfg : t.cfg = s.cfg
  simMode : t.lcd.simMode = s.lcd.simMode
  time : s.env.timeMs ≤ t.env.timeMs

theorem Grows.refl (s : State) : Grows s s :=
  ⟨id, List.prefix_rfl, List.prefix_rfl, List.prefix_rfl, List.prefix_rfl, rfl, rfl, le_rfl⟩

theorem Grows.trans {s t u : State} (h : Grows s t) (g : Grows t u) : Grows s u where
  refused := fun x => g.refused (h.refused x)
  trace := h.trace.trans g.trace
  timeSamples := h.timeSamples.trans g.timeSamples
  issued := h.issued.trans g.issued
  replies := h.replies.trans g.replies
  cfg := g.cfg.trans h.cfg
  simMode := g.simMode.trans h.simMode
  time := h.time.trans g.time

theorem grows_raise (k : FaultKind) (s : State) : Grows s (s.raise k) := { Grows.refl s with }

theorem grows_refuse (r : Reason) (s : State) : Grows s (s.refuse r) :=
  { Grows.refl s with refused := fun _ => rfl, replies := List.prefix_append _ _ }

theorem grows_reply (v : Word) (s : State) : Grows s (s.reply v) :=
  { Grows.refl s with replies := List.prefix_append _ _ }

theorem grows_of_lcdEffect {n : Nat} {s t : State} (h : LcdEffect n s t) : Grows s t where
  refused := h.refused
  trace := h.trace
  timeSamples := h.timeSamples ▸ List.prefix_rfl
  issued := h.issued ▸ List.prefix_rfl
  replies := by
    obtain ⟨l, _, hl⟩ := h.replies
    exact hl ▸ List.prefix_append _ _
  cfg := h.cfg
  simMode := h.simMode
  time := h.env ▸ le_rfl

theorem grows_countTick (s : State) : Grows s (countTick s) := by
  rw [countTick_eq]
  exact { Grows.refl s with trace := List.prefix_append _ _ }

theorem grows_keypadAnswer {i : Instr} {s t : State} (h : KeypadAnswer s i t) : Grows s t := by
  cases h with
  | refuse r => exact grows_refuse _ s
  | status v => exact grows_reply v s
  | init v => exact { Grows.refl s with trace := List.prefix_append _ _, replies := List.prefix_append _ _ }
  | rejected v => exact { Grows.refl s with timeSamples := List.prefix_append _ _, replies := List.prefix_append _ _ }
  | switched p => exact { Grows.refl s with trace := List.prefix_append _ _, timeSamples := List.prefix_append _ _ }
  | resumed v => exact { Grows.refl s with trace := List.prefix_append _ _, replies := List.prefix_append _ _ }

theorem exec_grows {i : Instr} {s t : State} (h : exec i s = .next t) : Grows s t := by
  cases hp : partOf i with
  | clock =>
    rcases exec_clock hp h with ⟨_, rfl⟩ | hans
    · exact grows_raise _ s
    · cases hans with
      | refuse r => exact grows_refuse r s
      | reply v hw hk => exact { Grows.refl s with replies := List.prefix_append _ _ }
  | keypad =>
    rcases exec_keypad hp h with ⟨_, rfl⟩ | ⟨_, hans⟩
    · exact grows_raise _ s
    · exact grows_keypadAnswer hans
  | display =>
    rcases exec_display_effect hp h with ⟨_, rfl⟩ | ⟨_, he, _⟩
    · exact grows_raise _ s
    · exact grows_of_lcdEffect he
  | bus => exact grows_of_lcdEffect (exec_bus hp h).1
  | agent =>
    cases i with
    | evTick =>
      rcases exec_evTick h with ⟨_, rfl⟩ | ⟨_, _, rfl⟩ | ⟨_, _, rfl⟩
      · exact .refl _
      · exact grows_raise _ s
      · exact grows_countTick s
    | evPinchange => cases h; exact { Grows.refl s with }
    | evCbDone => cases h; exact { Grows.refl s with }
    | _ => cases hp

theorem issue_grows {c : Command} {s t : State} (h : issue c s = .next t) : Grows s t := by
  have hrecord : Grows s (recordIssue c s) := { Grows.refl s with issued := List.prefix_append _ _ }
  rcases issue_cases h with ⟨r, rfl⟩ | ⟨i, _, he⟩
  · exact hrecord.trans (grows_refuse r _)
  · exact hrecord.trans (exec_grows he)

theorem turn_grows {c : Choice} {s t : State} (h : Turn s c t) : Grows s t := by
  cases h with
  | idle => exact .refl s
  | issue _ _ h => exact { issue_grows h with }
  | callbackIssue _ h => exact { issue_grows h with }
  | resume _ _ h | tick _ h | pinChange _ h | cbDone h | bus _ h => exact exec_grows h
  | press keys => exact { Grows.refl s with }
  | passTime ms => exact { Grows.refl s with time := Nat.le_add_right _ _ }

/-- Settles O14: every turn only adds to the records. -/
theorem marksAndTraceOnlyGrow : Obligations.MarksAndTraceOnlyGrow := by
  unfold Obligations.MarksAndTraceOnlyGrow
  intro s t h
  obtain ⟨hf, hturn⟩ := step_cases h
  have hgrows : Grows s t := by
    rcases hturn with ⟨_, rfl⟩ | ⟨c, rest, _, hturn⟩
    · exact .refl _
    · exact { turn_grows hturn with }
  exact ⟨hgrows.refused, hf, hgrows.trace, hgrows.timeSamples, hgrows.issued, hgrows.replies, hgrows.cfg,
    hgrows.simMode, hgrows.time⟩

/-! TickOverrun. -/

/-- Only the tick handler raises TickOverrun (R270). -/
theorem exec_keeps_tickOverrun {i : Instr} {s t : State} (h : exec i s = .next t) (hi : i ≠ .evTick) :
    t.faults.tickOverrun = s.faults.tickOverrun := by
  cases hp : partOf i with
  | clock =>
    rcases exec_clock hp h with ⟨_, rfl⟩ | hans
    · rfl
    · cases hans <;> rfl
  | keypad =>
    rcases exec_keypad hp h with ⟨_, rfl⟩ | ⟨_, hans⟩
    · rfl
    · cases hans <;> rfl
  | display =>
    rcases exec_display_effect hp h with ⟨_, rfl⟩ | ⟨_, he, _⟩
    · rfl
    · rw [he.faults]
  | bus => rw [(exec_bus hp h).1.faults]
  | agent =>
    cases i with
    | evTick => exact absurd rfl hi
    | evPinchange => cases h; rfl
    | evCbDone => cases h; rfl
    | _ => cases hp

theorem issue_keeps_tickOverrun {c : Command} {s t : State} (h : issue c s = .next t) :
    t.faults.tickOverrun = s.faults.tickOverrun := by
  rcases issue_cases h with ⟨r, rfl⟩ | ⟨i, hd, he⟩
  · rfl
  · refine (exec_keeps_tickOverrun he ?_).trans rfl
    rintro rfl
    rcases partOf_of_decodeHost hd with hp | hp | hp <;> cases hp

/-- A tick that CallbackFits allows finds no callback active. -/
theorem turn_keeps_tickOverrun {c : Choice} {s t : State} (h : Turn s c t)
    (hfits : c = .tick → (s.tickEnabled && s.clk.cbActive) = false) : t.faults.tickOverrun = s.faults.tickOverrun := by
  cases h with
  | idle | press | passTime => rfl
  | issue _ _ h => exact (issue_keeps_tickOverrun h).trans rfl
  | callbackIssue _ h => exact (issue_keeps_tickOverrun h).trans rfl
  | resume _ _ h | pinChange _ h | cbDone h => exact exec_keeps_tickOverrun h (by simp)
  | bus hd h =>
    refine exec_keeps_tickOverrun h ?_
    rintro rfl
    cases partOf_of_decodeBus hd
  | tick hon h =>
    have hc : s.clk.cbActive = false := by simpa [hon] using hfits rfl
    rcases exec_evTick h with ⟨_, rfl⟩ | ⟨_, hactive, _⟩ | ⟨_, _, rfl⟩
    · rfl
    · exact absurd hactive (by simp [hc])
    · rw [countTick_eq]

theorem step_keeps_tickOverrun {s t : State} (h : step s = .next t) (hfits : s.callbackFits = true) :
    t.faults.tickOverrun = s.faults.tickOverrun := by
  obtain ⟨_, ⟨_, rfl⟩ | ⟨c, rest, hs, hturn⟩⟩ := step_cases h
  · rfl
  · refine (turn_keeps_tickOverrun hturn ?_).trans rfl
    rintro rfl
    simp only [State.callbackFits, hs, Bool.not_eq_true'] at hfits
    exact hfits

/-- Settles O22: by induction on the number of steps, each of which CallbackFits keeps from an overrun. -/
theorem callbackFitsPreventsOverrun : Obligations.CallbackFitsPreventsOverrun := by
  unfold Obligations.CallbackFitsPreventsOverrun
  intro k
  induction k with
  | zero => intro s t h0 _ hrun; cases hrun; exact h0
  | succ k ih =>
    intro s t h0 hfits hrun
    obtain ⟨u, hstep, hrest⟩ := runSteps_first hrun
    have hfirst : s.callbackFits = true := hfits 0 (Nat.succ_pos k) s rfl
    refine ih u t ((step_keeps_tickOverrun hstep hfirst).trans h0) ?_ hrest
    intro j hj v hv
    exact hfits (j + 1) (Nat.succ_lt_succ hj) v ((runSteps_succ j hstep).trans hv)

end Sys2Proof.Proofs

/-! PROOFS. The invariant of the block: it holds at reset and after construction, and every step keeps it (R13, R38, R41, R45
to R49, R51, R52, R55, R56, R263, R264, R291). -/

namespace Sys2Proof.Proofs

open Sys2Proof Sys2Proof.Machine

/-! The invariant while commands are being answered. -/

/-- The invariant holds but for n issued commands that are not accounted for yet: with n more replies it would hold. -/
def Owing (n : Nat) (s : State) : Prop :=
  State.Inv { s with replies := s.replies ++ List.replicate n (.result .mainFlow 0) }

theorem owing_zero {s : State} : Owing 0 s ↔ s.Inv := by simp [Owing]

theorem Owing.count {n : Nat} {s : State} (h : Owing n s) :
    s.issued.length = s.replies.length + n + s.unanswered := by
  have hr := h.replied
  rw [List.length_append, List.length_replicate] at hr
  exact hr

theorem unanswered_idle {s : State} (h : s.kp.gkPhase = .idle) : s.unanswered = s.faults.callbackReentry.toNat := by
  rw [State.unanswered, h]
  cases s.faults.callbackReentry <;> rfl

theorem unanswered_switched {s : State} (h : s.kp.gkPhase = .switched) :
    s.unanswered = 1 + s.faults.callbackReentry.toNat := by
  rw [State.unanswered, h]
  cases s.faults.callbackReentry <;> rfl

theorem unanswered_raise_reentry {s : State} (h : s.faults.callbackReentry = false) :
    (s.raise .callbackReentry).unanswered = s.unanswered + 1 := by
  cases hp : s.kp.gkPhase with
  | idle => rw [unanswered_idle hp, unanswered_idle (s := s.raise _) hp, h]; rfl
  | switched => rw [unanswered_switched hp, unanswered_switched (s := s.raise _) hp, h]; rfl

/-- Issuing a command leaves it owing. -/
theorem owing_recordIssue {c : Command} {s : State} (h : s.Inv) : Owing 1 (recordIssue c s) :=
  { h with
    replied := by
      have hr : s.issued.length = s.replies.length + s.unanswered := h.replied
      change (s.issued ++ [(s.context, c)]).length = (s.replies ++ [_]).length + s.unanswered
      simp only [List.length_append, List.length_singleton]
      omega }

/-- The reply, or the refusal, that a command owed. -/
theorem inv_of_reply {s : State} {r : Reply} (h : Owing 1 s) : State.Inv { s with replies := s.replies ++ [r] } :=
  { h with
    replied := by
      have hc := h.count
      change s.issued.length = (s.replies ++ [r]).length + s.unanswered
      simp only [List.length_append, List.length_singleton]
      omega }

theorem inv_reply {s : State} (v : Word) (h : Owing 1 s) : (s.reply v).Inv := inv_of_reply h

theorem inv_refuse {s : State} (r : Reason) (h : Owing 1 s) : (s.refuse r).Inv :=
  { inv_of_reply (r := .refused s.context r) h with }

/-- A fault is no reply, but it accounts for its command (R263). -/
theorem inv_raise_reentry {s : State} (h : Owing 1 s) (hf : s.faulted = false) (hc : s.clk.cbActive = true) :
    (s.raise .callbackReentry).Inv := by
  obtain ⟨htick, hreentry⟩ : s.faults.tickOverrun = false ∧ s.faults.callbackReentry = false := by
    simpa [State.faulted] using hf
  exact { h with
    fault := fun _ => ⟨hc, by simp [FaultSet.insert, htick]⟩
    replied := by
      have hc := h.count
      rw [raise_issued, raise_replies, unanswered_raise_reentry hreentry]
      omega }

/-! The Clock. -/

theorem inv_clockAnswer {i : Instr} {s t : State} (h : Owing 1 s) (hf : s.faulted = false) (ha : ClockAnswer i s t) :
    t.Inv := by
  cases ha with
  | refuse r => exact inv_refuse r h
  | @reply v k hw hk =>
    have hactive : k.cbActive = s.clk.cbActive := by cases hw <;> rfl
    exact { inv_of_reply (r := .result (State.context { s with clk := k }) v) h with
      callback := fun hc => by
        have hs : s.clk.cbActive = true := hactive.symm.trans hc
        rw [reply_clk, hk hs]
        exact h.callback hs
      fault := fun hfault => absurd hfault (by simpa [State.faulted] using hf) }

/-! The KeyScanner. -/

/-- Every one of four row pins is driven. -/
def RowsDriven (f : Four Level) : Prop := ∀ r : BitVec 2, Four.get f r ≠ .undriven

theorem rowsDriven_iff (f : Pins) : f.rowsDriven = true ↔ RowsDriven f.row := by
  rw [RowsDriven, forall_index]
  simp [Pins.rowsDriven, Four.get, and_assoc]

theorem RowsDriven.set {f : Four Level} {x : Level} (h : RowsDriven f) (hx : x ≠ .undriven) (i : BitVec 2) :
    RowsDriven (Four.set f i x) := by
  intro r
  by_cases hr : r = i
  · rw [hr, four_get_set_same]; exact hx
  · rw [four_get_set_other _ _ _ _ hr]; exact h r

/-- Samples stand no later in a longer trace. -/
theorem samples_of_prefix {l : List (Nat × Word)} {tr tr' : List Event} (h : ∀ x ∈ l, x.1 ≤ tr.length) (hp : tr <+: tr') :
    ∀ x ∈ l, x.1 ≤ tr'.length := fun x hx => (h x hx).trans hp.length_le

/-- A new sample stands at the end of the trace. -/
theorem samples_append {l : List (Nat × Word)} {tr tr' : List Event} {v : Word} (h : ∀ x ∈ l, x.1 ≤ tr.length)
    (hp : tr <+: tr') : ∀ x ∈ l ++ [(tr.length, v)], x.1 ≤ tr'.length := by
  simp only [List.forall_mem_append, List.forall_mem_singleton]
  exact ⟨samples_of_prefix h hp, hp.length_le⟩

theorem inv_switched {s : State} {p : Bool} (h : Owing 1 s) (hk : s.kp.initialised = true) (hi : s.kp.gkPhase = .idle) :
    State.Inv { s with
      pin := { s.pin with row := Four.set (Four.set s.pin.row s.kp.currentRow .high) (s.kp.currentRow + 1) .low }
      trace := s.trace ++ [.out (.row s.kp.currentRow) true, .out (.row (s.kp.currentRow + 1)) false, .wait .settle]
      timeSamples := s.timeSamples ++ [(s.trace.length, s.now)]
      kp := { s.kp with currentRow := s.kp.currentRow + 1, pcPending := p, gkTime := s.now, gkPhase := .switched } } :=
  { h with
    beforeKpdInit := fun hn => absurd hk (by simpa using hn)
    afterKpdInit := fun _ => by
      have hdriven : RowsDriven s.pin.row := (rowsDriven_iff s.pin).mp (h.afterKpdInit hk)
      exact (rowsDriven_iff _).mpr ((hdriven.set (by simp) _).set (by simp) _)
    samples := samples_append h.samples (List.prefix_append _ _)
    replied := by
      have hc := h.count
      rw [unanswered_idle hi] at hc
      rw [unanswered_switched rfl]
      exact hc.trans (Nat.add_assoc _ _ _) }

theorem inv_kpdInit {s : State} (v : Word) (h : Owing 1 s) : State.Inv (State.reply v { s with
    pin := { s.pin with row := ⟨.low, .low, .low, .low⟩ }
    trace := s.trace ++ [.out (.row 0) false, .out (.row 1) false, .out (.row 2) false, .out (.row 3) false]
    kp := { s.kp with pcPending := false, initialised := true } }) :=
  { inv_reply v h with
    beforeKpdInit := nofun
    afterKpdInit := fun _ => rfl
    samples := samples_of_prefix h.samples (List.prefix_append _ _) }

theorem inv_rejected {s : State} (v : Word) (h : Owing 1 s) : (s.sampleTime.reply v).Inv :=
  { inv_reply v h with samples := samples_append h.samples List.prefix_rfl }

/-- A KeyScanner command issued with no call in flight. -/
theorem inv_keypadAnswer {i : Instr} {s t : State} (h : Owing 1 s) (hi : s.kp.gkPhase = .idle) (ha : KeypadAnswer s i t) :
    t.Inv := by
  cases ha with
  | refuse r => exact inv_refuse _ h
  | status v => exact inv_reply v h
  | init v => exact inv_kpdInit v h
  | rejected v => exact inv_rejected v h
  | switched p hk => exact inv_switched h hk hi
  | resumed v c evs he stamp hs => cases hi.symm.trans hs

/-- The second half answers the call in flight. -/
theorem inv_getKeySecondHalf {s : State} (h : s.Inv) (hs : s.kp.gkPhase = .switched) : (getKeySecondHalf s).Inv := by
  obtain ⟨v, c, evs, _, stamp, hhalf⟩ := getKeySecondHalf_eq s
  rw [hhalf]
  exact { h with
    beforeKpdInit := fun hn => by
      obtain ⟨_, _, _, hidle, _⟩ := h.beforeKpdInit hn
      cases hidle.symm.trans hs
    samples := samples_of_prefix h.samples (List.prefix_append _ _)
    replied := by
      have hr := h.replied
      rw [unanswered_switched hs, ← Nat.add_assoc] at hr
      rw [unanswered_idle rfl, reply_replies, List.length_append]
      exact hr }

/-! The CharDisplay. -/

theorem nextPosition_inBounds {l : Display} {maxLen : Nat} (h : l.scrollOk maxLen = true) (hm : l.scrollMode = .scrolling) :
    Display.scrollOk maxLen { l with
      scrollPosition := nextPosition l.scrollDirection l.scrollText.length l.scrollPosition } = true := by
  simp only [Display.scrollOk, hm, if_true, Bool.and_eq_true, decide_eq_true_eq] at h ⊢
  obtain ⟨hlen, hpos⟩ := h
  exact ⟨hlen, nextPosition_lt _ hpos⟩

/-- Every write to the display state keeps what the invariant says of it (R52, R55, R56). -/
theorem displayWrite_keeps {maxLen : Nat} {i : Instr} {l l' : Display} (hw : DisplayWrite maxLen l i l')
    (hscroll : l.scrollOk maxLen = true) (hglyph : l.glyphCount ≤ 8)
    (hbefore : l.initialised = false → l.scrollMode = .idle ∧ l.glyphCount = 0) :
    l'.scrollOk maxLen = true ∧ l'.glyphCount ≤ 8
      ∧ (l'.initialised = false → l'.scrollMode = .idle ∧ l'.glyphCount = 0) := by
  cases hw with
  | none | toggle | direction => exact ⟨hscroll, hglyph, hbefore⟩
  | init => exact ⟨hscroll, hglyph, nofun⟩
  | static _ _ _ hinit => exact ⟨rfl, hglyph, fun hn => absurd hinit (by simpa using hn)⟩
  | scrolling _ _ text hinit hlong hmax =>
    refine ⟨?_, hglyph, fun hn => absurd hinit (by simpa using hn)⟩
    have hpos : 0 < text.length := Nat.zero_lt_of_lt hlong
    simp [Display.scrollOk, Config.lcdCols, hlong, hmax, hpos]
  | stop => exact ⟨rfl, hglyph, fun hn => ⟨rfl, (hbefore hn).2⟩⟩
  | advance hm => exact ⟨nextPosition_inBounds hscroll hm, hglyph, hbefore⟩
  | glyph _ _ hinit hslot => exact ⟨hscroll, max_le hglyph hslot, fun hn => absurd hinit (by simpa using hn)⟩
  | glyphs _ _ hinit hcount => exact ⟨hscroll, max_le hglyph hcount, fun hn => absurd hinit (by simpa using hn)⟩

theorem inv_of_lcdEffect {n : Nat} {i : Instr} {s t : State} (h : Owing n s) (he : LcdEffect n s t)
    (hw : DisplayWrite s.cfg.maxScrollLen s.lcd i t.lcd) : t.Inv := by
  obtain ⟨hscroll, hglyph, hbefore⟩ := displayWrite_keeps hw h.scroll h.glyphs h.beforeLcdInit
  have hfaulted : t.faulted = s.faulted := by rw [State.faulted, he.faults, State.faulted]
  exact {
    config := by rw [he.cfg]; exact h.config
    simMode := by rw [he.simMode, he.cfg]; exact h.simMode
    scroll := by rw [he.cfg]; exact hscroll
    glyphs := hglyph
    beforeLcdInit := hbefore
    beforeKpdInit := by
      have hb := h.beforeKpdInit
      simp only [Pins.rowsUndriven] at hb ⊢
      rw [he.kp, he.rows]
      exact hb
    afterKpdInit := by
      have ha := h.afterKpdInit
      simp only [Pins.rowsDriven] at ha ⊢
      rw [he.kp, he.rows]
      exact ha
    enable := he.enable h.enable
    callback := by rw [he.clk]; exact h.callback
    fault := by rw [hfaulted, he.clk, he.faults]; exact h.fault
    samples := by rw [he.timeSamples]; exact samples_of_prefix h.samples he.trace
    replied := by
      obtain ⟨l, hl, hr⟩ := he.replies
      have hc := h.count
      rw [he.issued, hr, State.unanswered, he.kp, he.faults, List.length_append, hl]
      exact hc }

/-! Instructions. -/

/-- A host command that is owed its answer gives or accounts for it. -/
theorem inv_exec_command {i : Instr} {s t : State} (h : Owing 1 s) (hf : s.faulted = false)
    (hready : s.clk.cbActive = true ∨ s.kp.gkPhase = .idle)
    (hp : partOf i = .clock ∨ partOf i = .keypad ∨ partOf i = .display) (he : exec i s = .next t) : t.Inv := by
  rcases hp with hp | hp | hp
  · rcases exec_clock hp he with ⟨hc, rfl⟩ | hans
    · exact inv_raise_reentry h hf hc
    · exact inv_clockAnswer h hf hans
  · rcases exec_keypad hp he with ⟨hc, rfl⟩ | ⟨hc, hans⟩
    · exact inv_raise_reentry h hf hc
    · exact inv_keypadAnswer h (hready.resolve_left (by simp [hc])) hans
  · rcases exec_display_effect hp he with ⟨hc, rfl⟩ | ⟨_, heffect, hw⟩
    · exact inv_raise_reentry h hf hc
    · exact inv_of_lcdEffect h heffect hw

theorem inv_issue {c : Command} {s t : State} (h : s.Inv) (hf : s.faulted = false)
    (hready : s.clk.cbActive = true ∨ s.kp.gkPhase = .idle) (hi : issue c s = .next t) : t.Inv := by
  rcases issue_cases hi with ⟨r, rfl⟩ | ⟨i, hd, he⟩
  · exact inv_refuse r (owing_recordIssue h)
  · exact inv_exec_command (owing_recordIssue h) hf hready (partOf_of_decodeHost hd) he

theorem inv_tick {s t : State} (h : s.Inv) (hf : s.faulted = false) (hon : s.tickEnabled = true)
    (he : exec .evTick s = .next t) : t.Inv := by
  obtain ⟨hconf, hrun⟩ : s.clk.configured = true ∧ s.clk.running = true := by simpa [State.tickEnabled] using hon
  obtain ⟨_, hreentry⟩ : s.faults.tickOverrun = false ∧ s.faults.callbackReentry = false := by
    simpa [State.faulted] using hf
  rcases exec_evTick he with ⟨_, rfl⟩ | ⟨_, hc, rfl⟩ | ⟨_, hc, rfl⟩
  · exact h
  · exact { h with fault := fun _ => ⟨hc, by simp [FaultSet.insert, hreentry]⟩ }
  · rw [countTick_eq]
    exact { h with
      callback := fun hactive => by
        refine ⟨hconf, hrun, fun hzero => ?_⟩
        have hz : s.clk.callback = 0 := hzero
        have ha : (if s.clk.callback = 0 then s.clk.cbActive else true) = true := hactive
        simp [hz, hc] at ha
      fault := fun hfault => absurd hfault (by simpa [State.faulted] using hf)
      samples := samples_of_prefix h.samples (List.prefix_append _ _) }

/-- An edge is latched only after KPD_INIT, so the handler sets the flag only then (R45, R46). -/
theorem inv_pinChange {s t : State} (h : s.Inv) (hon : s.pinChangeEnabled = true) (he : exec .evPinchange s = .next t) :
    t.Inv := by
  obtain ⟨hpending, _⟩ : s.kp.pcPending = true ∧ s.clk.cbActive = false := by simpa [State.pinChangeEnabled] using hon
  cases he
  exact { h with
    beforeKpdInit := fun hn => by
      obtain ⟨_, hclear, _⟩ := h.beforeKpdInit hn
      cases hclear.symm.trans hpending }

theorem inv_pressKeys (keys : Grid Bool) {s : State} (h : s.Inv) : (pressKeys keys s).Inv :=
  { h with
    beforeKpdInit := fun hn => by
      obtain ⟨hrows, hpending, hrest⟩ := h.beforeKpdInit hn
      have hk : s.kp.initialised = false := hn
      exact ⟨hrows, by simp [pressKeys, hpending, hk], hrest⟩ }

theorem inv_turn {c : Choice} {s t : State} (h : s.Inv) (hf : s.faulted = false) (hturn : Turn s c t) : t.Inv := by
  cases hturn with
  | idle => exact h
  | @issue c rest t _ hphase hi => exact inv_issue (s := { s with cmd := rest }) { h with } hf (.inr hphase) hi
  | @callbackIssue c rest t hactive hi => exact inv_issue (s := { s with cbCmd := rest }) { h with } hf (.inl hactive) hi
  | resume hphase hmain he =>
    rw [exec_kpdGetKey, execKpdGetKey, mainFlowOnly_main hmain] at he
    simp only [hphase] at he
    cases he
    exact inv_getKeySecondHalf h hphase
  | tick hon he => exact inv_tick h hf hon he
  | pinChange hon he => exact inv_pinChange h hon he
  | cbDone he =>
    cases he
    exact { h with
      callback := nofun
      fault := fun hfault => absurd hfault (by simpa [State.faulted] using hf) }
  | press keys => exact inv_pressKeys keys h
  | passTime ms => exact { h with }
  | bus hd he =>
    obtain ⟨heffect, hlcd⟩ := exec_bus (partOf_of_decodeBus hd) he
    refine inv_of_lcdEffect (i := .evTick) (owing_zero.mpr h) heffect ?_
    rw [hlcd]
    exact .none _

/-- Settles O60: by the turns of the agents; a command owes its answer from its issue until it has run. -/
theorem stepKeepsInvariant : Obligations.StepKeepsInvariant := by
  unfold Obligations.StepKeepsInvariant
  intro s t h hstep
  obtain ⟨hf, ⟨_, rfl⟩ | ⟨c, rest, _, hturn⟩⟩ := step_cases hstep
  · exact h
  · exact inv_turn (s := { s with sched := rest }) { h with } hf hturn

/-! Reset and construction. -/

theorem inv_ofConfig {c : Config} (hc : c.valid = true) (keys : Grid Bool) (ms : Nat) : (State.ofConfig c keys ms).Inv where
  config := hc
  simMode := rfl
  scroll := rfl
  glyphs := Nat.zero_le 8
  beforeLcdInit := fun _ => ⟨rfl, rfl⟩
  beforeKpdInit := fun _ => ⟨rfl, rfl, rfl, rfl, rfl, rfl⟩
  afterKpdInit := nofun
  enable := nofun
  callback := nofun
  fault := nofun
  samples := nofun
  replied := rfl

theorem boardKey_ne_noKey (r c : Nat) : Config.boardKey r c ≠ Config.noKey := by
  unfold Config.boardKey
  split
  · decide
  · assumption

theorem boardDelay_simLonger (n : Nat) : (Config.boardDelay n).simLonger = true :=
  decide_eq_true (Nat.le_add_right _ _)

/-- Every constraint of R13 and R41 is built into the free values of the board. -/
theorem board_valid : Config.board.valid = true := by
  have hkeys : Config.keymapNonZero Config.board.keymap = true := by
    simp [Config.board, Config.keymapNonZero, Config.rowNonZero, Config.boardKeyRow, boardKey_ne_noKey]
  have hwake : Config.board.tWake3Us < Config.board.tWake1Us := by
    simp only [Config.board]
    split <;> omega
  simp only [Config.valid, hkeys, hwake, Bool.and_eq_true, decide_eq_true_eq]
  refine ⟨⟨⟨⟨⟨⟨⟨⟨⟨trivial, boardDelay_simLonger 1⟩, boardDelay_simLonger 3⟩, boardDelay_simLonger 5⟩, ?_⟩, ?_⟩, ?_⟩, trivial⟩, ?_⟩, ?_⟩
  all_goals simp only [Config.board]; omega

/-- Settles O57: construction writes these values. -/
theorem resetLeavesSpecValues : Obligations.ResetLeavesSpecValues := by
  unfold Obligations.ResetLeavesSpecValues
  exact ⟨rfl, rfl, rfl, rfl, rfl, rfl, rfl, rfl, rfl, rfl, rfl, rfl, rfl, rfl, rfl⟩

/-- Settles O58: construction checks exactly the constraints. -/
theorem constructionChecksConfig : Obligations.ConstructionChecksConfig := by
  unfold Obligations.ConstructionChecksConfig
  intro c keys ms
  constructor
  · intro hc
    exact ⟨State.ofConfig c keys ms, by simp [State.construct, hc], inv_ofConfig hc keys ms, rfl, rfl⟩
  · intro hc
    simp [State.construct, hc]

/-- Settles O59: reset is construction from the board's configuration, which is valid. -/
theorem resetMeetsInvariant : Obligations.ResetMeetsInvariant := inv_ofConfig board_valid _ _

end Sys2Proof.Proofs

/-! PROOFS. The LCD bus: what leaves it quiet and what breaks its timing (R294, R296), and what the external controller holds
afterwards (R195, R233, R244; the controller view is the model's, log 17). -/

namespace Sys2Proof.Proofs

open Sys2Proof Sys2Proof.Machine

/-! Quiet stays quiet. -/

/-- The observer keeps quiet over these events. -/
def KeepsQuiet (c : Config) (evs : List Event) : Prop :=
  ∀ m : BusMonitor, m.Quiet → (evs.foldl (BusMonitor.see c) m).Quiet

theorem KeepsQuiet.append {c : Config} {evs evs' : List Event} (h : KeepsQuiet c evs) (h' : KeepsQuiet c evs') :
    KeepsQuiet c (evs ++ evs') := fun m hq => by
  rw [List.foldl_append]
  exact h' _ (h m hq)

theorem keepsQuiet_nil (c : Config) : KeepsQuiet c [] := fun _ hq => hq

/-- Out to a row pin, a column sample and a callback are not seen on the LCD bus. -/
theorem keepsQuiet_row (c : Config) (i : BitVec 2) (b : Bool) : KeepsQuiet c [.out (.row i) b] :=
  fun _ ⟨hw, ho, hp, he⟩ => ⟨hw, ho, hp, he⟩

theorem keepsQuiet_inCols (c : Config) (v : BitVec 4) : KeepsQuiet c [.inCols v] := fun _ hq => hq

/-- On a quiet bus nothing is owed, so a wait changes nothing. -/
theorem see_wait_quiet {c : Config} {t : Delay} {m : BusMonitor} (hq : m.Quiet) (ht : t.inPulse = false) :
    m.see c (.wait t) = m := by
  obtain ⟨_, ho, hp, _⟩ := hq
  rw [see_wait c t m ht hp, ho, Nat.zero_sub, ← ho]

theorem keepsQuiet_wait (c : Config) {t : Delay} (ht : t.inPulse = false) : KeepsQuiet c [.wait t] := fun m hq => by
  rw [List.foldl_cons, see_wait_quiet hq ht]
  exact hq

theorem owedAfter_settled (c : Config) {rs : Bool} {b : Byte} (h : (BusPiece.byte rs b).Settled) :
    owedAfter c rs b = c.tExecUs := by
  rcases h with rfl | hb | rfl
  · exact owedAfter_data c b
  · cases rs
    · exact owedAfter_command c hb
    · exact owedAfter_data c b
  · cases rs <;> rfl

theorem keepsQuiet_byte (c : Config) (md : Mode) {rs : Bool} {b : Byte} (h : owedAfter c rs b = c.tExecUs) :
    KeepsQuiet c (byteEvents md rs b) := fun _ hq => quiet_after_byte hq h md

theorem keepsQuiet_long {c : Config} (hc : Config.tLongMinUs ≤ c.tLongUs) (md : Mode) {b : Byte}
    (hb : b = 0x01#8 ∨ b = 0x02#8) : KeepsQuiet c (byteEvents md false b ++ [.wait .long]) := fun m hq => by
  rw [see_long c md b m hq hc hb]
  obtain ⟨hw, ho, hp, _⟩ := hq
  exact ⟨hw, ho, hp, by simp [Pins.afterByte, Pins.afterNibble]⟩

theorem keepsQuiet_piece {c : Config} (hc : Config.tLongMinUs ≤ c.tLongUs) (md : Mode) {x : BusPiece} (h : x.Settled) :
    KeepsQuiet c (x.events md) := by
  cases x with
  | byte rs b => exact keepsQuiet_byte c md (owedAfter_settled c h)
  | long b => exact keepsQuiet_long hc md h

theorem keepsQuiet_pieces {c : Config} (hc : Config.tLongMinUs ≤ c.tLongUs) (md : Mode) {l : List BusPiece}
    (h : ∀ x ∈ l, x.Settled) : KeepsQuiet c (piecesEvents md l) := by
  induction l with
  | nil => exact keepsQuiet_nil c
  | cons x l ih =>
    obtain ⟨hx, hl⟩ := List.forall_mem_cons.mp h
    exact (keepsQuiet_piece hc md hx).append (ih hl)

/-- RS and E driven low, and the power-on wait: the start of LCD_INIT, which leaves a quiet bus as it was but for these
pins (R195). -/
theorem see_init_start (c : Config) {m : BusMonitor} (hq : m.Quiet) :
    [Event.out .rs false, .out .e false, .wait .powerOn].foldl (BusMonitor.see c) m =
      { m with pin := { m.pin with rs := .low, e := .low } } := by
  obtain ⟨hw, ho, hp, he⟩ := hq
  have hb : (m.pin.e == Level.high) = false := by simpa using he
  simp [BusMonitor.see, BusMonitor.lcdOut, BusMonitor.waited, BusMonitor.closeNibble, Delay.inPulse, Pins.drive,
    Level.ofBit, hp, hw, ho, hb]

/-- Over these events a quiet observer stays quiet and sees the transfers l. -/
def Carries (c : Config) (l : List BusTransfer) (evs : List Event) : Prop :=
  ∀ m : BusMonitor, m.Quiet →
    (evs.foldl (BusMonitor.see c) m).Quiet ∧ (evs.foldl (BusMonitor.see c) m).transfers = m.transfers ++ l

theorem Carries.append {c : Config} {l l' : List BusTransfer} {evs evs' : List Event} (h : Carries c l evs)
    (h' : Carries c l' evs') : Carries c (l ++ l') (evs ++ evs') := fun m hq => by
  obtain ⟨hq1, ht1⟩ := h m hq
  obtain ⟨hq2, ht2⟩ := h' _ hq1
  rw [List.foldl_append]
  exact ⟨hq2, by rw [ht2, ht1, List.append_assoc]⟩

theorem Carries.keepsQuiet {c : Config} {l : List BusTransfer} {evs : List Event} (h : Carries c l evs) :
    KeepsQuiet c evs := fun m hq => (h m hq).1

theorem carries_init_start (c : Config) : Carries c [] [.out .rs false, .out .e false, .wait .powerOn] := fun m hq => by
  rw [see_init_start c hq]
  obtain ⟨hw, ho, hp, _⟩ := hq
  exact ⟨⟨hw, ho, hp, by simp⟩, (List.append_nil _).symm⟩

theorem carries_lone_nibble (c : Config) (md : Mode) (v : BitVec 4) {t : Delay} (ht : t.inPulse = false) :
    Carries c [.nibble v] (nibbleEvents md v ++ [.wait t]) := fun m hq => by
  rw [see_lone_nibble c md v t m hq ht]
  obtain ⟨hw, ho, hp, _⟩ := hq
  exact ⟨⟨hw, ho, hp, by simp [Pins.afterNibble]⟩, rfl⟩

theorem carries_bytes (c : Config) (md : Mode) {l : List (Bool × Byte)}
    (h : ∀ x ∈ l, owedAfter c x.1 x.2 = c.tExecUs) :
    Carries c (l.map fun x => .byte x.1 x.2) (bytesEvents md l) := fun m hq =>
  ⟨quiet_after_bytes hq h md, by rw [see_bytes c md l m hq h]⟩

/-- The events of LCD_INIT up to its last byte, grouped as the bus takes them. -/
def initPrelude (m : Mode) : List Event :=
  [.out .rs false, .out .e false, .wait .powerOn] ++ (nibbleEvents m 0x3#4 ++ [.wait .wake1])
    ++ (nibbleEvents m 0x3#4 ++ [.wait .wake2]) ++ (nibbleEvents m 0x3#4 ++ [.wait .wake3])
    ++ (nibbleEvents m 0x2#4 ++ [.wait .exec]) ++ bytesEvents m [(false, 0x28#8), (false, 0x0C#8), (false, 0x06#8)]

theorem initEvents_eq (m : Mode) : initEvents m = initPrelude m ++ (byteEvents m false 0x01#8 ++ [.wait .long]) := by
  simp only [initEvents, initPrelude, bytesEvents, List.flatMap_cons, List.flatMap_nil, List.append_assoc, List.append_nil]

theorem initBytes_owed (c : Config) :
    ∀ x ∈ [(false, 0x28#8), (false, 0x0C#8), (false, 0x06#8)], owedAfter c x.1 x.2 = c.tExecUs := by
  simp only [List.forall_mem_cons, List.not_mem_nil, false_implies, implies_true, and_true]
  exact ⟨rfl, rfl, rfl⟩

theorem carries_initPrelude (c : Config) (md : Mode) :
    Carries c [.nibble 0x3#4, .nibble 0x3#4, .nibble 0x3#4, .nibble 0x2#4, .byte false 0x28#8, .byte false 0x0C#8,
      .byte false 0x06#8] (initPrelude md) :=
  (((((carries_init_start c).append (carries_lone_nibble c md _ rfl)).append
    (carries_lone_nibble c md _ rfl)).append (carries_lone_nibble c md _ rfl)).append
    (carries_lone_nibble c md _ rfl)).append (carries_bytes c md (initBytes_owed c))

theorem keepsQuiet_initEvents {c : Config} (hc : Config.tLongMinUs ≤ c.tLongUs) (md : Mode) :
    KeepsQuiet c (initEvents md) := by
  rw [initEvents_eq]
  exact (carries_initPrelude c md).keepsQuiet.append (keepsQuiet_long hc md (.inl rfl))

theorem tLongMin_of_valid {c : Config} (h : c.valid = true) : Config.tLongMinUs ≤ c.tLongUs := by
  simp only [Config.valid, Bool.and_eq_true, decide_eq_true_eq] at h
  obtain ⟨⟨⟨⟨⟨⟨_, hlong⟩, _⟩, _⟩, _⟩, _⟩, _⟩ := h
  exact hlong

/-- Every host command but a raw clear or home appends events that keep the bus quiet. -/
theorem command_keepsQuiet {i : Instr} {s t : State} (hhost : isHostCommand i = true) (hraw : isRawLong i = false)
    (hc : Config.tLongMinUs ≤ s.cfg.tLongUs) (h : exec i s = .next t) :
    ∃ evs, t.trace = s.trace ++ evs ∧ KeepsQuiet s.cfg evs := by
  have silent : ∀ {u : State}, u.trace = s.trace → ∃ evs, u.trace = s.trace ++ evs ∧ KeepsQuiet s.cfg evs :=
    fun hu => ⟨[], by simp [hu], keepsQuiet_nil _⟩
  rcases partOf_of_isHostCommand hhost with hp | hp | hp
  · obtain ⟨_, _, _, _, _, _, _, _, _, htrace, _⟩ := exec_clock_frame hp h
    exact silent htrace
  · rcases exec_keypad hp h with ⟨_, rfl⟩ | ⟨_, hans⟩
    · exact silent rfl
    · cases hans with
      | refuse | status | rejected => exact silent rfl
      | init =>
        exact ⟨_, rfl, (((keepsQuiet_row _ 0 false).append (keepsQuiet_row _ 1 false)).append
          (keepsQuiet_row _ 2 false)).append (keepsQuiet_row _ 3 false)⟩
      | switched =>
        exact ⟨_, rfl, ((keepsQuiet_row _ s.kp.currentRow true).append
          (keepsQuiet_row _ (s.kp.currentRow + 1) false)).append (keepsQuiet_wait _ (t := .settle) rfl)⟩
      | resumed v c evs he =>
        refine ⟨evs, rfl, ?_⟩
        rcases he with rfl | rfl
        · exact keepsQuiet_nil _
        · exact keepsQuiet_inCols _ c
  · by_cases hi : i = .lcdInit
    · subst hi
      rcases exec_lcdInit h with ⟨_, rfl⟩ | ⟨_, _, rfl⟩ | ⟨_, _, rfl⟩
      · exact silent rfl
      · exact silent rfl
      · exact ⟨_, rfl, keepsQuiet_initEvents hc s.mode⟩
    · rcases exec_display hp hi h with ⟨_, rfl⟩ | ⟨_, l, he⟩
      · exact silent rfl
      · exact ⟨_, he.sends.emits, keepsQuiet_pieces hc s.mode (he.settled hraw)⟩

/-- Settles O50: each command's events are pieces that wait as long as they owe, or no business of the LCD bus. -/
theorem commandsKeepBusWellTimed : Obligations.CommandsKeepBusWellTimed := by
  unfold Obligations.CommandsKeepBusWellTimed
  intro i s t hhost hraw hvalid hquiet h
  obtain ⟨evs, htrace, hkeeps⟩ := command_keepsQuiet hhost hraw (tLongMin_of_valid hvalid) h
  rw [lcdQuiet_iff] at hquiet ⊢
  rw [(exec_grows h).cfg, htrace, busMonitor_append]
  exact hkeeps _ hquiet

/-! A raw clear or home. -/

/-- Once early, the trace stays early. -/
theorem see_keeps_early (c : Config) (ev : Event) {m : BusMonitor} (h : m.wellTimed = false) :
    (m.see c ev).wellTimed = false := by
  have hclose : m.closeNibble.wellTimed = false := by unfold BusMonitor.closeNibble; split <;> exact h
  have hlatch : ∀ m : BusMonitor, (m.latch c).wellTimed = m.wellTimed := by
    intro m; unfold BusMonitor.latch; split <;> rfl
  have hout : ∀ p b, (m.lcdOut c p b).wellTimed = false := by
    intro p b
    unfold BusMonitor.lcdOut
    by_cases hp : (p == .rs) = true <;> simp only [hp, if_true] <;> split <;> simp [hlatch, hclose, h]
  cases ev with
  | out p b => cases p <;> first | exact h | exact hout _ b
  | wait t =>
    simp only [BusMonitor.see, BusMonitor.waited]
    split
    · exact h
    · exact hclose
  | inCols | now | callback => exact h

theorem foldl_keeps_early (c : Config) (evs : List Event) {m : BusMonitor} (h : m.wellTimed = false) :
    (evs.foldl (BusMonitor.see c) m).wellTimed = false := by
  induction evs generalizing m with
  | nil => exact h
  | cons ev evs ih => exact ih (see_keeps_early c ev h)

/-- An Out to RS while a wait is owed is early (R296). -/
theorem see_rs_early (c : Config) (b : Bool) {m : BusMonitor} (h : m.owed ≠ 0) :
    (m.see c (.out .rs b)).wellTimed = false := by
  have hclose : m.closeNibble.owed = m.owed := by unfold BusMonitor.closeNibble; split <;> rfl
  have hzero : (m.owed == 0) = false := by simpa using h
  simp [BusMonitor.see, BusMonitor.lcdOut, hclose, hzero]

/-- Whatever pieces are sent begin with RS. -/
theorem piecesEvents_begin {md : Mode} {l : List BusPiece} (h : piecesEvents md l ≠ []) :
    ∃ b evs, piecesEvents md l = .out .rs b :: evs := by
  cases l with
  | nil => exact absurd rfl h
  | cons x l =>
    cases x with
    | byte rs b => exact ⟨rs, _, rfl⟩
    | long b => exact ⟨false, _, rfl⟩

theorem isRawLong_cases {i : Instr} (h : isRawLong i = true) :
    ∃ b, i = .lcdCommand b ∧ (b = 0x01#8 ∨ b = 0x02#8 ∨ b = 0x03#8) := by
  simp only [isRawLong, Bool.or_eq_true, beq_iff_eq] at h
  rcases h with (rfl | rfl) | rfl <;> simp

theorem lcdCommand_ready {s : State} (hc : s.clk.cbActive = false) (hi : s.lcd.initialised = true) (b : Byte) :
    exec (.lcdCommand b) s = .next (State.reply 0 (s.sent [cmdByte b])) := by
  rw [exec, execLcdCommand, lcdCommandStep_ready hc hi, sendCommand_eq]

/-- After a raw clear or home from a quiet bus the rest of the long recovery is still owed. -/
theorem owed_after_rawLong {s : State} {b : Byte} (hb : b = 0x01#8 ∨ b = 0x02#8 ∨ b = 0x03#8)
    (hexec : s.cfg.tExecUs < 1520) (hq : (busMonitor s.cfg s.trace).Quiet) :
    (busMonitor s.cfg (s.sent [cmdByte b]).trace).owed ≠ 0 := by
  have howed : owedAfter s.cfg false b = 1520 := by rcases hb with rfl | rfl | rfl <;> rfl
  rw [cmdByte, sent_one]
  simp only [busMonitor_append, see_byte _ _ _ _ _ hq, howed]
  omega

/-- Settles O51: the next byte begins with RS, an Out while the long recovery is owed. -/
theorem rawClearBreaksWellTimed : Obligations.RawClearBreaksWellTimed := by
  unfold Obligations.RawClearBreaksWellTimed
  intro s t u i j op hc hinit hexec hquiet hraw ht hop h40 hu hne
  obtain ⟨b, rfl, hb⟩ := isRawLong_cases hraw
  rw [lcdCommand_ready hc hinit] at ht
  cases ht
  have howed := owed_after_rawLong hb hexec ((lcdQuiet_iff _ _).mp hquiet)
  have hp : partOf j = .display := by
    rcases partOf_of_commandOp hop with ⟨_, hlt⟩ | ⟨_, _, hlt⟩ | ⟨hp, _⟩
    · omega
    · omega
    · exact hp
  have hj : j ≠ .lcdInit := by
    rintro rfl
    rw [lcdInit_again (s := State.reply 0 (s.sent [cmdByte b])) hc hinit] at hu
    cases hu
    exact hne rfl
  rcases exec_display hp hj hu with ⟨_, rfl⟩ | ⟨_, l, he⟩
  · exact absurd rfl hne
  · have htrace := he.sends.emits
    obtain ⟨v, evs, hbegin⟩ := piecesEvents_begin fun hnil => hne (htrace.trans (by rw [hnil, List.append_nil]))
    rw [lcdTraceWellTimed, (exec_grows hu).cfg, htrace, hbegin, busMonitor_append, List.foldl_cons]
    exact foldl_keeps_early _ _ (see_rs_early _ _ howed)

end Sys2Proof.Proofs

/-! PROOFS. The results of the CharDisplay's commands, micro-operations and bus encodings: their events, the pins and the
display state they leave, and their refusals (R100 to R110, R190 to R209, R230 to R243). -/

namespace Sys2Proof.Proofs

open Sys2Proof Sys2Proof.Machine

/-! The main flow. -/

/-- A refusal in the main flow, written out (R264). -/
theorem refuse_main {s : State} (h : s.clk.cbActive = false) (r : Reason) :
    s.refuse r = { s with refused := true, replies := s.replies ++ [.refused .mainFlow r] } := by
  rw [State.refuse, context_main h]

/-- The CharDisplay takes commands: main flow, after LCD_INIT (R209, R269). -/
structure Ready (s : State) : Prop where
  mainFlow : s.clk.cbActive = false
  initialised : s.lcd.initialised = true

theorem Ready.command {s : State} (h : Ready s) (body : State → State) : lcdCommandStep body s = .next (body s) :=
  lcdCommandStep_ready h.mainFlow h.initialised

theorem Ready.of_eq {s t : State} (h : Ready s) (hc : t.clk = s.clk) (hl : t.lcd.initialised = s.lcd.initialised) :
    Ready t := ⟨by rw [hc]; exact h.mainFlow, by rw [hl]; exact h.initialised⟩

theorem Ready.reply {s : State} (h : Ready s) (v : Word) : s.reply v = s.answered v := reply_main h.mainFlow v

theorem Ready.refuse {s : State} (h : Ready s) (r : Reason) :
    s.refuse r = { s with refused := true, replies := s.replies ++ [.refused .mainFlow r] } := refuse_main h.mainFlow r

/-! Micro-operations. -/

/-- Settles O33: the closed forms of the pulse, the nibble and the byte. -/
theorem microOperationTraces : Obligations.MicroOperationTraces := by
  unfold Obligations.MicroOperationTraces
  intro s v b rs
  refine ⟨?_, ?_, ?_, ?_, ?_⟩
  · rw [exec, execPulseEnable, pulse_eq]
  · rw [exec, execSendNibble, nibble_eq v (v.extractLsb' 0 4) s fun i hi => by simp [hi]]
  · rw [exec, execSendByte, transfer_eq, sent_one]
  · rw [exec, exec, execCommand, sendCommand, execSendByte]
  · rw [exec, exec, execWriteChar, sendData, execSendByte]

/-! LCD_INIT and the commands before it. -/

theorem initEvents_length (m : Mode) : (initEvents m).length = 136 := by
  cases m <;> rfl

/-- Settles O34: initialisedState is the state that the statement prints. -/
theorem lcdInitResult : Obligations.LcdInitResult := by
  unfold Obligations.LcdInitResult
  intro s hc
  refine ⟨initEvents_length s.mode, fun hi => ?_, fun hi => ?_⟩
  · rw [lcdInit_first hc hi, initialisedState, reply_main]
    exact hc
  · rw [lcdInit_again hc hi, refuse_main hc]

/-- Every CharDisplay command but LCD_INIT and the two reads begins with the checks of R209 and R269. -/
theorem exec_eq_lcdCommandStep {i : Instr} (hp : partOf i = .display) (hinit : i ≠ .lcdInit) (hscroll : i ≠ .lcdIsScrolling)
    (hpos : i ≠ .lcdGetScrollPosition) : ∃ body : State → State, ∀ s, exec i s = lcdCommandStep body s := by
  cases i with
  | lcdInit => exact absurd rfl hinit
  | lcdIsScrolling => exact absurd rfl hscroll
  | lcdGetScrollPosition => exact absurd rfl hpos
  | lcdCommand | lcdWriteChar | lcdPrint | lcdClear | lcdHome | lcdSetCursor => exact ⟨_, fun _ => rfl⟩
  | lcdDisplayOn | lcdDisplayOff | lcdCursorOn | lcdCursorOff | lcdBlinkOn | lcdBlinkOff => exact ⟨_, fun _ => rfl⟩
  | lcdStartScroll | lcdStopScroll | lcdUpdateScroll | lcdSetScrollDirection => exact ⟨_, fun _ => rfl⟩
  | lcdCreateChar | lcdCreateChars | lcdWriteCustomChar => exact ⟨_, fun _ => rfl⟩
  | _ => cases hp

/-- An OP of the CharDisplay's group above LCD_INIT's (R94). -/
theorem display_of_commandOp {i : Instr} {op : Nat} (h : commandOp i = some op) (h41 : 0x41 ≤ op) :
    partOf i = .display ∧ i ≠ .lcdInit := by
  rcases partOf_of_commandOp h with ⟨_, hlt⟩ | ⟨_, _, hlt⟩ | ⟨hp, _, hinit⟩
  · omega
  · omega
  · exact ⟨hp, fun he => by have := hinit.mp he; omega⟩

/-- Settles O35: the check of R209 refuses before the body runs. -/
theorem lcdCommandsRefusedBeforeInit : Obligations.LcdCommandsRefusedBeforeInit := by
  unfold Obligations.LcdCommandsRefusedBeforeInit
  intro i op s hc hi hop h41 hscroll hpos
  obtain ⟨hp, hinit⟩ := display_of_commandOp hop h41
  obtain ⟨body, hexec⟩ := exec_eq_lcdCommandStep hp hinit hscroll hpos
  rw [hexec, lcdCommandStep_early hc hi, refuse_main hc]

/-! Bytes and texts. -/

theorem lcdWriteChar_ready {s : State} (h : Ready s) (b : Byte) :
    exec (.lcdWriteChar b) s = .next (State.answered 0 (s.sent [(true, b)])) := by
  rw [exec, execLcdWriteChar, h.command, sendData_eq, reply_main]
  exact h.mainFlow

/-- Settles O36: each byte is sent as it is. -/
theorem rawByteResults : Obligations.RawByteResults := by
  unfold Obligations.RawByteResults
  intro s b hc hi
  have h : Ready s := ⟨hc, hi⟩
  rw [lcdCommand_ready hc hi, lcdWriteChar_ready h, cmdByte, reply_main, sent_one, sent_one]
  · exact ⟨rfl, rfl⟩
  · exact hc

/-- Settles O37: sendText_eq is the induction over the text. -/
theorem printSendsEachByte : Obligations.PrintSendsEachByte := by
  unfold Obligations.PrintSendsEachByte
  intro s text hc hi
  have h : Ready s := ⟨hc, hi⟩
  rw [exec, execLcdPrint, h.command]
  refine ⟨fun hle => ?_, fun hlt => ?_⟩
  · rw [if_neg (Nat.not_lt.mpr hle), sendText_eq, reply_main, sent_dataBytes]
    exact hc
  · rw [if_pos hlt, h.refuse]

theorem long_sent (b : Byte) (s : State) : (s.sent [cmdByte b]).wait .long = { s with
    trace := s.trace ++ byteEvents s.mode false b ++ [.wait .long], pin := s.pin.afterByte false b } := by
  rw [cmdByte, sent_one]
  rfl

/-- Settles O38: the command byte and the long wait. -/
theorem clearAndHomeResults : Obligations.ClearAndHomeResults := by
  unfold Obligations.ClearAndHomeResults
  intro s hc hi
  have h : Ready s := ⟨hc, hi⟩
  constructor
  · rw [exec, execLcdClear, h.command, sendLong_eq, reply_main, long_sent]
    exact hc
  · rw [exec, execLcdHome, h.command, sendLong_eq, reply_main, long_sent]
    exact hc

/-! Cursor and toggles. -/

theorem rowInRange_iff (row : Byte) : rowInRange row = true ↔ row.toNat < 4 := decide_eq_true_iff

theorem colInRange_iff (col : Byte) : colInRange col = true ↔ col.toNat < 16 := decide_eq_true_iff

theorem slotInRange_iff (slot : Byte) : slotInRange slot = true ↔ slot.toNat < 8 := decide_eq_true_iff

theorem lcdSetCursor_ready {s : State} (h : Ready s) {col row : Byte} (hcol : col.toNat < 16) (hrow : row.toNat < 4) :
    exec (.lcdSetCursor col row) s =
      .next (State.answered 0 (s.sent [cmdByte (ddramByte col.toNat row.toNat)])) := by
  have hbyte : cursorByte col (rowIndex row) = ddramByte col.toNat row.toNat := by
    rw [← cursorByte_eq hcol hrow, BitVec.ofNat_toNat, BitVec.setWidth_eq]
  have hrange : (rowInRange row && colInRange col) = true := by
    rw [Bool.and_eq_true, rowInRange_iff, colInRange_iff]
    exact ⟨hrow, hcol⟩
  rw [exec, execLcdSetCursor, h.command, if_pos hrange, hbyte, sendCommand_eq, reply_main]
  exact h.mainFlow

/-- Settles O39: the byte is cursorByte_eq's; one operand out of range refuses. -/
theorem setCursorResult : Obligations.SetCursorResult := by
  unfold Obligations.SetCursorResult
  intro s col row hc hi
  have h : Ready s := ⟨hc, hi⟩
  refine ⟨fun hcol hrow => ?_, fun hout => ?_⟩
  · rw [lcdSetCursor_ready h hcol hrow, cmdByte, sent_one]
  · rw [exec, execLcdSetCursor, h.command, if_neg, h.refuse]
    rw [Bool.and_eq_true, rowInRange_iff, colInRange_iff]
    omega

theorem toggle_ready {s : State} (h : Ready s) (f : DispCtl) : toggle f s = State.answered 0 { s with
    lcd := { s.lcd with dispCtl := f }
    trace := s.trace ++ byteEvents s.mode false (dispByte f)
    pin := s.pin.afterByte false (dispByte f) } := by
  rw [toggle, sendCommand_eq, displayControlByte_eq, cmdByte, reply_main, sent_one]
  · rfl
  · exact h.mainFlow

/-- Settles O40: the six toggles share toggle_ready. -/
theorem toggleResults : Obligations.ToggleResults := by
  unfold Obligations.ToggleResults
  intro s i f hc hi hmem
  have h : Ready s := ⟨hc, hi⟩
  rw [← toggle_ready h]
  simp only [List.mem_cons, Prod.mk.injEq, List.not_mem_nil, or_false] at hmem
  rcases hmem with ⟨rfl, rfl⟩ | ⟨rfl, rfl⟩ | ⟨rfl, rfl⟩ | ⟨rfl, rfl⟩ | ⟨rfl, rfl⟩ | ⟨rfl, rfl⟩
  · rw [exec, execLcdDisplayOn, h.command]
  · rw [exec, execLcdDisplayOff, h.command]
  · rw [exec, execLcdCursorOn, h.command]
  · rw [exec, execLcdCursorOff, h.command]
  · rw [exec, execLcdBlinkOn, h.command]
  · rw [exec, execLcdBlinkOff, h.command]

/-! Scroll. -/

theorem rowIndex_eq (row : Byte) : rowIndex row = BitVec.ofNat 2 row.toNat := rfl

/-- The bus activity of the static branch in closed form (R230, R231). -/
theorem renderCentred_eq {row : Byte} (hrow : row.toNat < 4) {text : List Byte} (htext : text.length ≤ 16) (s : State) :
    renderCentred (rowIndex row) text s = { s with
      trace := s.trace ++ byteEvents s.mode false 0x01#8 ++ [.wait .long]
        ++ byteEvents s.mode false (ddramByte ((16 - text.length) / 2) row.toNat) ++ text.flatMap (byteEvents s.mode true)
      pin := (text.getLast?.map fun b => s.pin.afterByte true b).getD
        (s.pin.afterByte false (ddramByte ((16 - text.length) / 2) row.toNat)) } := by
  have hcol : (16 - text.length) / 2 < 16 := by omega
  have hbyte : cursorByte (centreCol text.length) (rowIndex row) = ddramByte ((16 - text.length) / 2) row.toNat :=
    cursorByte_eq hcol hrow
  rw [renderCentred, sendLong_eq, hbyte, sendCommand_eq, sendText_eq, sent_dataBytes, long_sent, cmdByte, sent_one]
  simp only [afterByte_afterByte]
  rfl

/-- Settles O41: the row check, the length check, then the branch by the length of a row of the display. -/
theorem startScrollResult : Obligations.StartScrollResult := by
  unfold Obligations.StartScrollResult
  intro s row dir text hc hi
  have h : Ready s := ⟨hc, hi⟩
  rw [exec, execLcdStartScroll, h.command, Config.lcdCols]
  have inRange (hrow : row.toNat < 4) : rowInRange row = true := (rowInRange_iff row).mpr hrow
  refine ⟨fun hrow hmax hshort => ?_, fun hrow hmax hlong => ?_, fun hrow hmax => ?_, fun hrow => ?_⟩
  · rw [if_pos (inRange hrow), if_neg (Nat.not_lt.mpr hmax), if_pos hshort, startStatic, renderCentred_eq hrow hshort,
      reply_main, rowIndex_eq]
    exact hc
  · rw [if_pos (inRange hrow), if_neg (Nat.not_lt.mpr hmax), if_neg (Nat.not_le.mpr hlong), startScrolling, reply_main,
      rowIndex_eq]
    exact hc
  · rw [if_pos (inRange hrow), if_pos hmax, h.refuse]
  · rw [if_neg (mt (rowInRange_iff row).mp (Nat.not_lt.mpr hrow)), h.refuse]

/-- The window's bytes, each by its place in the text (R232, R233). -/
theorem windowBytes_eq {text : List Byte} (h : 0 < text.length) (p : Nat) :
    windowBytes text p = (List.range 16).map fun i => text.getD ((p + i) % text.length) 0 :=
  List.map_congr_left fun _ _ => windowByte_eq h

/-- What LCD_UPDATE_SCROLL puts on the bus: the cursor byte of the row and the window (R232). -/
def windowTransfers (l : Display) : List (Bool × Byte) :=
  cmdByte (ddramByte 0 l.scrollRow.toNat) :: dataBytes ((List.range 16).map fun i =>
    l.scrollText.getD ((l.scrollPosition + i) % l.scrollText.length) 0)

theorem sent_windowTransfers (s : State) : s.sent (windowTransfers s.lcd) = { s with
    trace := s.trace ++ byteEvents s.mode false (ddramByte 0 s.lcd.scrollRow.toNat)
      ++ (List.range 16).flatMap fun i => byteEvents s.mode true
          (s.lcd.scrollText.getD ((s.lcd.scrollPosition + i) % s.lcd.scrollText.length) 0)
    pin := s.pin.afterByte true (s.lcd.scrollText.getD ((s.lcd.scrollPosition + 15) % s.lcd.scrollText.length) 0) } := by
  simp [State.sent, windowTransfers, bytesEvents, dataBytes, cmdByte, Pins.afterBytes, List.range_succ]

theorem renderWindow_eq {s : State} (h : 0 < s.lcd.scrollText.length) : renderWindow s =
    { s.sent (windowTransfers s.lcd) with lcd := { s.lcd with
        scrollPosition := nextPosition s.lcd.scrollDirection s.lcd.scrollText.length s.lcd.scrollPosition } } := by
  rw [renderWindow, windowBytes_eq h, cursorByte_row, sendCommand_eq, sendText_eq, sent_sent]
  rfl

/-- Settles O42: the window is a cursor byte and 16 data bytes; in IDLE and STATIC the command only replies. -/
theorem updateScrollRendersWindow : Obligations.UpdateScrollRendersWindow := by
  unfold Obligations.UpdateScrollRendersWindow
  intro s hc hi
  have h : Ready s := ⟨hc, hi⟩
  refine ⟨fun hm hlen => ?_, fun hm => ?_⟩
  · have hnext : nextPosition s.lcd.scrollDirection s.lcd.scrollText.length s.lcd.scrollPosition =
        if s.lcd.scrollDirection = .right then
          (if s.lcd.scrollPosition = 0 then s.lcd.scrollText.length - 1 else s.lcd.scrollPosition - 1)
        else (s.lcd.scrollPosition + 1) % s.lcd.scrollText.length := by
      cases s.lcd.scrollDirection <;> rfl
    rw [lcdUpdateScroll_scrolling ⟨hc, hi, hm⟩, renderWindow_eq hlen, sent_windowTransfers, hnext, reply_main]
    exact hc
  · rw [exec_lcdUpdateScroll, execLcdUpdateScroll, h.command]
    cases hmode : s.lcd.scrollMode with
    | scrolling => exact absurd hmode hm
    | idle | static => simp only [h.reply]

/-- Settles O44: none of the four puts anything on the bus. -/
theorem scrollStateCommandResults : Obligations.ScrollStateCommandResults := by
  unfold Obligations.ScrollStateCommandResults
  intro s hc
  refine ⟨fun hi => ⟨?_, fun dir => ?_⟩, ?_, ?_⟩
  · have h : Ready s := ⟨hc, hi⟩
    rw [exec, execLcdStopScroll, h.command, reply_main]
    exact hc
  · have h : Ready s := ⟨hc, hi⟩
    rw [exec, execLcdSetScrollDirection, h.command, reply_main]
    exact hc
  · have hbit : (BitVec.ofBool s.lcd.isScrolling).setWidth 32 = if s.lcd.scrollMode = .scrolling then 1 else (0 : Word) := by
      rw [Display.isScrolling]
      cases s.lcd.scrollMode <;> rfl
    rw [exec, execLcdIsScrolling, mainFlowOnly_main hc, reply_main hc, hbit]
  · rw [exec, execLcdGetScrollPosition, mainFlowOnly_main hc, reply_main hc]

/-! Glyphs. -/

theorem lcdCreateChar_ready {s : State} (h : Ready s) {slot : Byte} {bitmap : List Byte} (hlen : bitmap.length = 8)
    (hslot : slot.toNat < 8) :
    exec (.lcdCreateChar slot bitmap) s = .next (State.answered 1 { s with
      trace := s.trace ++ bytesEvents s.mode (glyphBytes slot.toNat bitmap)
      pin := s.pin.afterByte false 0x80#8
      lcd := { s.lcd with glyphCount := max s.lcd.glyphCount (slot.toNat + 1) } }) := by
  rw [exec, execLcdCreateChar, h.command, if_pos hlen, if_pos ((slotInRange_iff slot).mpr hslot), createCharBody_eq,
    reply_main]
  exact h.mainFlow

/-- Settles O45: CreateCharBody's bytes, or the failure result. -/
theorem createCharResult : Obligations.CreateCharResult := by
  unfold Obligations.CreateCharResult
  intro s slot bitmap hc hi hlen
  have h : Ready s := ⟨hc, hi⟩
  refine ⟨fun hslot => ?_, fun hslot => ?_⟩
  · rw [lcdCreateChar_ready h hlen hslot, bytesEvents_glyphBytes]
    simp only [List.append_assoc]
  · rw [exec, execLcdCreateChar, h.command, if_pos hlen, if_neg, h.reply]
    rw [slotInRange_iff]
    omega

/-- The slots in order, each with its return to DDRAM address 0 (R242). -/
theorem createChars_eq (n : Nat) (bitmaps : List Byte) (s : State) : createChars n bitmaps s = { s with
    trace := s.trace ++ (List.range n).flatMap fun k => bytesEvents s.mode (glyphBytes k (bitmapOf bitmaps k))
    pin := if n = 0 then s.pin else s.pin.afterByte false 0x80#8
    lcd := { s.lcd with glyphCount := max s.lcd.glyphCount n } } := by
  induction n with
  | zero => simp [createChars]
  | succ n ih =>
    rw [createChars_succ, ih, createCharBody_eq]
    have hpin : Pins.afterByte false 0x80#8 (if n = 0 then s.pin else s.pin.afterByte false 0x80#8)
        = s.pin.afterByte false 0x80#8 := by split <;> rfl
    simp [List.range_succ, hpin, State.mode, Display.mode]

/-- Settles O46: by induction on the count (createChars_eq). -/
theorem createCharsResult : Obligations.CreateCharsResult := by
  unfold Obligations.CreateCharsResult
  intro s count bitmaps hc hi
  have h : Ready s := ⟨hc, hi⟩
  rw [exec, execLcdCreateChars, h.command, Config.glyphSlots]
  refine ⟨fun hcount hlen => ?_, fun hcount => ?_⟩
  · have hzero : count.toNat = 0 ↔ count = 0 := by
      rw [← BitVec.toNat_inj]
      rfl
    rw [if_neg (Nat.not_lt.mpr hcount), if_pos hlen, createChars_eq, reply_main]
    · simp only [bytesEvents_glyphBytes, bitmapOf, hzero]
    · exact hc
  · rw [if_pos hcount, h.reply]

theorem lcdWriteCustomChar_ready {s : State} (h : Ready s) {slot : Byte} (hslot : slot.toNat < 8) :
    exec (.lcdWriteCustomChar slot) s = .next (State.answered 0 (s.sent [(true, slot)])) := by
  rw [exec, execLcdWriteCustomChar, h.command, if_pos ((slotInRange_iff slot).mpr hslot), sendData_eq, reply_main]
  exact h.mainFlow

/-- Settles O47: a slot in range is one data byte. -/
theorem writeCustomCharResult : Obligations.WriteCustomCharResult := by
  unfold Obligations.WriteCustomCharResult
  intro s slot hc hi
  have h : Ready s := ⟨hc, hi⟩
  refine ⟨fun hslot => ?_, fun hslot => ?_⟩
  · rw [lcdWriteCustomChar_ready h hslot, sent_one]
  · rw [exec, execLcdWriteCustomChar, h.command, if_neg, h.reply]
    rw [slotInRange_iff]
    omega

/-! Bus encodings. -/

theorem returnHomeByte : ∀ x : Bool, (0b0000001#7 ++ BitVec.ofBool x : Byte) = BitVec.ofNat 8 (0x02 + x.toNat) := by decide

theorem entryModeByte : ∀ x y : Bool, (0b000001#6 ++ BitVec.ofBool x ++ BitVec.ofBool y : Byte)
    = BitVec.ofNat 8 (0x04 + 2 * x.toNat + y.toNat) := by decide

theorem functionSetByte : ∀ (x y z : Bool) (q : BitVec 2),
    (0b001#3 ++ BitVec.ofBool x ++ BitVec.ofBool y ++ BitVec.ofBool z ++ q : Byte)
      = BitVec.ofNat 8 (0x20 + 16 * x.toNat + 8 * y.toNat + 4 * z.toNat + q.toNat) := by decide

theorem cgramByte (a : BitVec 6) : (0b01#2 ++ a : Byte) = BitVec.ofNat 8 (0x40 + a.toNat) := by
  apply BitVec.eq_of_toNat_eq
  rw [append_toNat, BitVec.toNat_ofNat, BitVec.toNat_ofNat]
  omega

theorem ddramAddrByte (a : BitVec 7) : (0b1#1 ++ a : Byte) = BitVec.ofNat 8 (0x80 + a.toNat) := by
  apply BitVec.eq_of_toNat_eq
  rw [append_toNat, BitVec.toNat_ofNat, BitVec.toNat_ofNat]
  omega

/-- Settles O48: every row is one transfer, of the byte that its rule prints. -/
theorem busByteTransfers : Obligations.BusByteTransfers := by
  unfold Obligations.BusByteTransfers
  intro s x y z q a d b
  simp only [← sent_one, ← transfer_eq, List.forall_mem_cons, List.not_mem_nil, false_implies, implies_true, and_true]
  refine ⟨rfl, ?_, ?_, ?_, ?_, ?_, ?_, ?_⟩
  · rw [exec, execBusReturnHome, returnHomeByte]
  · rw [exec, execBusEntryModeSet, entryModeByte]
  · rw [exec, execBusDisplayControl, displayControlByte_eq, dispByte]
  · rw [exec, execBusFunctionSet, functionSetByte]
  · rw [exec, execBusSetCgramAddr, cgramByte]
  · rw [exec, execBusSetDdramAddr, ddramAddrByte]
  · rw [exec, execBusDataWrite, BitVec.ofNat_toNat, BitVec.setWidth_eq]

/-- A lone nibble in closed form: RS is driven low first where it is not low (R108, R109; log 14). -/
theorem loneNibble_eq (v : Byte) (w : BitVec 4) (s : State) (h : ∀ i, i < 4 → v.getLsbD i = w.getLsbD i) :
    loneNibble v s = { s with
      trace := s.trace ++ (if s.pin.rs = .low then [] else [.out .rs false]) ++ nibbleEvents s.mode w
      pin := { s.pin.afterNibble w with rs := .low } } := by
  unfold loneNibble
  by_cases hrs : s.pin.rs = .low
  · rw [if_pos hrs, if_pos hrs, nibble_eq v w s h]
    simp [Pins.afterNibble, hrs]
  · rw [if_neg hrs, if_neg hrs, nibble_eq v w _ h]
    rfl

/-- Settles O49: both are loneNibble_eq. -/
theorem busNibbleTransfers : Obligations.BusNibbleTransfers := by
  unfold Obligations.BusNibbleTransfers
  intro s
  simp only [List.forall_mem_cons, List.not_mem_nil, false_implies, implies_true, and_true]
  constructor
  · rw [exec, execBusWakeNibble, loneNibble_eq 0x3#8 0x3#4 s (by decide)]
  · rw [exec, execBus4BitNibble, loneNibble_eq 0x2#8 0x2#4 s (by decide)]

end Sys2Proof.Proofs

/-! PROOFS. The external controller's memory after LCD_INIT, after a glyph and after a scroll update (R195, R233, R244), in the
model's view of it (PRESUMED, log 17). -/

namespace Sys2Proof.Proofs

open Sys2Proof Sys2Proof.Machine

/-! LCD_INIT. -/

/-- A byte and the long wait on a quiet bus: no Out is early, whatever is still owed at the end. -/
theorem see_last_byte (c : Config) (md : Mode) (rs : Bool) (b : Byte) {m : BusMonitor} (hq : m.Quiet) :
    ((byteEvents md rs b ++ [Event.wait .long]).foldl (BusMonitor.see c) m).wellTimed = true
      ∧ ((byteEvents md rs b ++ [Event.wait .long]).foldl (BusMonitor.see c) m).transfers = m.transfers ++ [.byte rs b] := by
  rw [List.foldl_append, see_byte c md rs b m hq]
  obtain ⟨hw, _, hp, _⟩ := hq
  simp [BusMonitor.see, BusMonitor.waited, Delay.inPulse, BusMonitor.closeNibble, hp, hw]

/-- Settles O52: LCD_INIT's last Out comes with nothing owed, and its transfers clear any controller (receive_init). -/
theorem initLeavesControllerCleared : Obligations.InitLeavesControllerCleared := by
  unfold Obligations.InitLeavesControllerCleared
  intro s t hc hi hquiet h
  rw [lcdInit_first hc hi] at h
  cases h
  obtain ⟨hprelude, htransfers⟩ := carries_initPrelude s.cfg s.mode _ ((lcdQuiet_iff _ _).mp hquiet)
  obtain ⟨htimed, hlast⟩ := see_last_byte s.cfg s.mode false 0x01#8 hprelude
  have hmonitor : busMonitor s.cfg (s.trace ++ initEvents s.mode) =
      (byteEvents s.mode false 0x01#8 ++ [Event.wait .long]).foldl (BusMonitor.see s.cfg)
        ((initPrelude s.mode).foldl (BusMonitor.see s.cfg) (busMonitor s.cfg s.trace)) := by
    rw [busMonitor_append, initEvents_eq, List.foldl_append]
  rw [← hmonitor] at htimed hlast
  rw [htransfers, List.append_assoc] at hlast
  change lcdController s.cfg (s.trace ++ initEvents s.mode) = _
  rw [lcdController, lcdTraceWellTimed, if_pos htimed, hlast, List.foldl_append]
  exact receive_init _

/-! Bytes taken by their rules. -/

/-- The bus is quiet after a trace, and the controller then holds what k says. -/
structure Holds (c : Config) (tr : List Event) (k : LcdController) : Prop where
  quiet : (busMonitor c tr).Quiet
  view : lcdController c tr = k

/-- The controller after one byte that it takes by its rule. -/
def takeByte (k : LcdController) (x : Bool × Byte) : LcdController := if x.1 then k.data x.2 else k.instruction x.2

theorem Holds.byte {c : Config} {tr : List Event} {k : LcdController} (h : Holds c tr k) (hw : k.wake = 5) (md : Mode)
    {rs : Bool} {b : Byte} (hb : owedAfter c rs b = c.tExecUs) :
    Holds c (tr ++ byteEvents md rs b) (takeByte k (rs, b)) where
  quiet := by
    rw [busMonitor_append]
    exact quiet_after_byte h.quiet hb md
  view := by
    rw [lcdController_byte h.quiet (by rw [h.view, hw]), h.view]
    rfl

/-- The controller after the data bytes of a text. -/
def writeText (text : List Byte) (k : LcdController) : LcdController := text.foldl (fun k d => k.data d) k

theorem writeText_wake (text : List Byte) (k : LcdController) : (writeText text k).wake = k.wake := by
  induction text generalizing k with
  | nil => rfl
  | cons d text ih => exact (ih (k.data d)).trans (data_wake d k)

theorem bytesEvents_cons (md : Mode) (x : Bool × Byte) (l : List (Bool × Byte)) :
    bytesEvents md (x :: l) = byteEvents md x.1 x.2 ++ bytesEvents md l := by simp [bytesEvents]

theorem Holds.text {c : Config} {tr : List Event} {k : LcdController} (h : Holds c tr k) (hw : k.wake = 5) (md : Mode)
    (text : List Byte) : Holds c (tr ++ bytesEvents md (dataBytes text)) (writeText text k) := by
  induction text generalizing tr k with
  | nil => simpa [dataBytes, bytesEvents, writeText] using h
  | cons d text ih =>
    have hfirst : Holds c (tr ++ byteEvents md true d) (k.data d) := h.byte hw md (owedAfter_data c d)
    have hsplit : tr ++ bytesEvents md (dataBytes (d :: text))
        = (tr ++ byteEvents md true d) ++ bytesEvents md (dataBytes text) := by
      rw [dataBytes, List.map_cons, bytesEvents_cons, List.append_assoc]
      rfl
    rw [hsplit]
    exact ih hfirst ((data_wake d k).trans hw)

/-! A text in a memory of the controller. -/

/-- One of the controller's two memories: data at one of its places, short of its last, goes into its cells, leaves the
other memory alone and moves one place on (R71 to R73). -/
structure DataMemory (place : Nat → LcdAddress) (size : Nat) (cells other : LcdController → List Host.Cell) : Prop where
  data : ∀ {k : LcdController} {n : Nat} (d : Byte), k.increments = true → k.address = some (place n) → n + 1 < size →
    (k.data d).increments = true ∧ (k.data d).address = some (place (n + 1)) ∧ cells (k.data d) = putCell n d (cells k)
      ∧ other (k.data d) = other k

theorem ddram_memory : DataMemory .ddram 128 (·.ddram) (·.cgram) where
  data := by
    intro k n d hi ha hn
    simp [LcdController.data, ha, LcdController.nextAddress, hi, hn]

theorem cgram_memory : DataMemory .cgram 64 (·.cgram) (·.ddram) where
  data := by
    intro k n d hi ha hn
    simp [LcdController.data, ha, LcdController.nextAddress, hi, hn]

/-- A text written from place n on stands there, and what is before it is as it was. -/
theorem DataMemory.writeText {place : Nat → LcdAddress} {size : Nat} {cells other : LcdController → List Host.Cell}
    (hm : DataMemory place size cells other) {text : List Byte} {k : LcdController} {n : Nat} (hi : k.increments = true)
    (ha : k.address = some (place n)) (hfit : n + text.length < size) :
    (∀ i, i < text.length → cellAt (n + i) (cells (writeText text k)) = text[i]?)
      ∧ (∀ j, j < n → cellAt j (cells (writeText text k)) = cellAt j (cells k))
      ∧ other (Proofs.writeText text k) = other k := by
  induction text generalizing k n with
  | nil => exact ⟨nofun, fun _ _ => rfl, rfl⟩
  | cons d text ih =>
    rw [List.length_cons] at hfit
    obtain ⟨hi1, ha1, hcells, hother⟩ := hm.data d hi ha (by omega)
    obtain ⟨hrest, hbefore, hkept⟩ := ih hi1 ha1 (by omega)
    refine ⟨?_, ?_, hkept.trans hother⟩
    · intro i hlt
      cases i with
      | zero => exact (hbefore n (Nat.lt_succ_self n)).trans (by rw [hcells, cellAt_putCell_same]; rfl)
      | succ i =>
        rw [List.length_cons] at hlt
        have hplace : n + (i + 1) = n + 1 + i := by omega
        rw [hplace]
        exact hrest i (by omega)
    · intro j hj
      refine (hbefore j (by omega)).trans ?_
      rw [hcells, cellAt_putCell_other _ _ _ _ (by omega)]

/-! Address bytes. -/

theorem ddramByte_large {col row : Nat} (hcol : col < 16) (hrow : row < 4) : 4 ≤ (ddramByte col row).toNat := by
  have large : ∀ c < 16, ∀ r < 4, 4 ≤ (ddramByte c r).toNat := by decide
  exact large col hcol row hrow

/-- The cursor byte sets the address counter to its place in DDRAM (R107, R201). -/
theorem instruction_ddramByte {col row : Nat} (hcol : col < 16) (hrow : row < 4) (k : LcdController) :
    k.instruction (ddramByte col row) = { k with address := some (.ddram (col + rowOffsetNat row)) } := by
  have key : ∀ c < 16, ∀ r < 4, decodeBusCommand (ddramByte c r) = .ok (.busSetDdramAddr (BitVec.ofNat 7 (c + rowOffsetNat r)))
      ∧ (BitVec.ofNat 7 (c + rowOffsetNat r)).toNat = c + rowOffsetNat r := by decide
  obtain ⟨hdecode, haddr⟩ := key col hcol row hrow
  simp only [LcdController.instruction, hdecode, haddr]

/-! A glyph. -/

/-- The controller after CreateCharBody of slot 0: the bitmap in CGRAM, the address counter at DDRAM 0 (R241). -/
def glyphWritten (bitmap : List Byte) (k : LcdController) : LcdController :=
  { writeText bitmap { k with address := some (.cgram 0) } with address := some (.ddram 0) }

theorem Holds.glyph {c : Config} {tr : List Event} {k : LcdController} (h : Holds c tr k) (hw : k.wake = 5) (md : Mode)
    (bitmap : List Byte) : Holds c (tr ++ bytesEvents md (glyphBytes 0 bitmap)) (glyphWritten bitmap k) := by
  have haddr : Holds c (tr ++ byteEvents md false 0x40#8) { k with address := some (.cgram 0) } := h.byte hw md rfl
  have htext := haddr.text hw md bitmap
  have hhome := htext.byte ((writeText_wake bitmap _).trans hw) md (rs := false) (b := 0x80#8) rfl
  have hsplit : tr ++ bytesEvents md (glyphBytes 0 bitmap)
      = tr ++ byteEvents md false 0x40#8 ++ bytesEvents md (dataBytes bitmap) ++ byteEvents md false 0x80#8 := by
    simp [glyphBytes, bytesEvents, cmdByte, slotByte]
  rw [hsplit]
  exact hhome

theorem glyphWritten_wake (bitmap : List Byte) (k : LcdController) : (glyphWritten bitmap k).wake = k.wake :=
  writeText_wake bitmap _

/-- The bitmap of slot 0 stands in CGRAM 0 to 7 (R72, R241). -/
theorem cgramAt_glyphWritten {bitmap : List Byte} (hlen : bitmap.length = 8) {k : LcdController} (hi : k.increments = true)
    {i : Nat} (hlt : i < 8) : (glyphWritten bitmap k).cgramAt i = bitmap[i]? := by
  obtain ⟨hcells, _, _⟩ := cgram_memory.writeText (text := bitmap) (k := { k with address := some (.cgram 0) }) (n := 0)
    hi rfl (by omega)
  have hcell := hcells i (by omega)
  rw [Nat.zero_add] at hcell
  exact hcell

/-- A data byte at a DDRAM address stands there and leaves CGRAM alone (R73, R110). -/
theorem data_ddram {k : LcdController} {a : Nat} (ha : k.address = some (.ddram a)) (d : Byte) :
    (k.data d).ddramAt a = some d ∧ (k.data d).cgram = k.cgram := by
  simp [LcdController.data, ha, LcdController.ddramAt, cellAt_putCell_same]

/-- The state after LCD_CREATE_CHAR of slot 0, its trace and what the commands after it need. -/
theorem createChar_zero {s t : State} (h : Ready s) {bm : List Byte} (hlen : bm.length = 8)
    (ht : exec (.lcdCreateChar 0 bm) s = .next t) :
    Ready t ∧ t.cfg = s.cfg ∧ t.trace = s.trace ++ bytesEvents s.mode (glyphBytes 0 bm) := by
  rw [lcdCreateChar_ready h hlen (by decide)] at ht
  cases ht
  exact ⟨⟨h.mainFlow, h.initialised⟩, rfl, rfl⟩

theorem sent_one_trace (rs : Bool) (b : Byte) (s : State) :
    (s.sent [(rs, b)]).trace = s.trace ++ byteEvents s.mode rs b := by rw [sent_one]

/-- Settles O53: the glyph's bytes go to CGRAM (cgramAt_glyphWritten), the code to the address counter's DDRAM place. -/
theorem glyphRoundTrip : Obligations.GlyphRoundTrip := by
  unfold Obligations.GlyphRoundTrip
  intro s t bm hc hi hquiet hinc hlen ht
  obtain ⟨hready, hcfg, htrace⟩ := createChar_zero ⟨hc, hi⟩ hlen ht
  have hstart : Holds s.cfg s.trace (lcdController s.cfg s.trace) := ⟨(lcdQuiet_iff _ _).mp hquiet, rfl⟩
  have hawake : (lcdController s.cfg s.trace).wake = 5 := lcdController_awake hinc
  have hglyph : Holds t.cfg t.trace (glyphWritten bm (lcdController s.cfg s.trace)) := by
    rw [hcfg, htrace]
    exact hstart.glyph hawake s.mode bm
  have hglyphAwake := (glyphWritten_wake bm (lcdController s.cfg s.trace)).trans hawake
  constructor
  · intro u hu
    rw [lcdWriteCustomChar_ready hready (by decide)] at hu
    cases hu
    have hcode := hglyph.byte hglyphAwake t.mode (owedAfter_data t.cfg 0)
    obtain ⟨hstands, hcgram⟩ := data_ddram (k := glyphWritten bm (lcdController s.cfg s.trace)) rfl 0
    change (lcdController t.cfg (t.sent [(true, 0)]).trace).ddramAt 0 = _
      ∧ ∀ i, i < 8 → (lcdController t.cfg (t.sent [(true, 0)]).trace).cgramAt i = _
    rw [sent_one_trace, hcode.view]
    refine ⟨hstands, fun i hlt => ?_⟩
    rw [← cgramAt_glyphWritten hlen hinc hlt]
    exact congrArg (cellAt i) hcgram
  · intro col row v u hcol hrow hv hu
    rw [lcdSetCursor_ready hready hcol hrow] at hv
    cases hv
    have hv : Ready (State.answered 0 (t.sent [cmdByte (ddramByte col.toNat row.toNat)])) :=
      ⟨hready.mainFlow, hready.initialised⟩
    rw [lcdWriteCustomChar_ready hv (by decide)] at hu
    cases hu
    have hcursor := hglyph.byte hglyphAwake t.mode (owedAfter_command t.cfg (ddramByte_large hcol hrow))
    rw [takeByte, if_neg (by simp), instruction_ddramByte hcol hrow] at hcursor
    have hcode := hcursor.byte hglyphAwake t.mode (owedAfter_data t.cfg 0)
    change (lcdController t.cfg (((t.sent [(false, ddramByte col.toNat row.toNat)]).trace)
      ++ bytesEvents t.mode [(true, 0)])).ddramAt _ = _
    rw [sent_one_trace, bytesEvents_cons, bytesEvents, List.flatMap_nil, List.append_nil, hcode.view, takeByte, if_pos rfl]
    exact (data_ddram rfl 0).1

/-! The scroll window. -/

/-- Settles O54: the cursor byte sets the row's place and the 16 bytes fill it (DataMemory.writeText). -/
theorem windowStandsInScrollRow : Obligations.WindowStandsInScrollRow := by
  unfold Obligations.WindowStandsInScrollRow
  intro s t hc hi hm hlen hquiet hinc ht i hlt
  rw [lcdUpdateScroll_scrolling ⟨hc, hi, hm⟩, renderWindow_eq hlen] at ht
  cases ht
  have hrow : s.lcd.scrollRow.toNat < 4 := s.lcd.scrollRow.isLt
  have hoffset : ∀ r < 4, rowOffsetNat r < 100 := by decide
  have hawake : (lcdController s.cfg s.trace).wake = 5 := lcdController_awake hinc
  have hstart : Holds s.cfg s.trace (lcdController s.cfg s.trace) := ⟨(lcdQuiet_iff _ _).mp hquiet, rfl⟩
  have hcursor := hstart.byte hawake s.mode (owedAfter_command s.cfg (ddramByte_large (by decide : 0 < 16) hrow))
  rw [takeByte, if_neg (by simp), instruction_ddramByte (by decide) hrow, Nat.zero_add] at hcursor
  have hwindow := hcursor.text hawake s.mode ((List.range 16).map fun i =>
    s.lcd.scrollText.getD ((s.lcd.scrollPosition + i) % s.lcd.scrollText.length) 0)
  change (lcdController s.cfg (s.trace ++ bytesEvents s.mode (windowTransfers s.lcd))).ddramAt _ = _
  rw [windowTransfers, bytesEvents_cons, ← List.append_assoc, cmdByte, hwindow.view, LcdController.ddramAt]
  obtain ⟨hcells, _, _⟩ := ddram_memory.writeText
    (k := { lcdController s.cfg s.trace with address := some (.ddram (rowOffsetNat s.lcd.scrollRow.toNat)) })
    (text := (List.range 16).map fun i =>
      s.lcd.scrollText.getD ((s.lcd.scrollPosition + i) % s.lcd.scrollText.length) 0) hinc rfl
    (by have := hoffset _ hrow; simp only [List.length_map, List.length_range]; omega)
  have hplace : (s.lcd.scrollPosition + i) % s.lcd.scrollText.length < s.lcd.scrollText.length := Nat.mod_lt _ hlen
  rw [hcells i (by simpa using hlt)]
  simp [hlt, List.getElem?_eq_getElem hplace]

end Sys2Proof.Proofs

/-! PROOFS. The Clock's commands and its tick (R130 to R142), and the handlers of the other agents (R168, R268). -/

namespace Sys2Proof.Proofs

open Sys2Proof Sys2Proof.Machine

/-! The commands. -/

/-- Settles O15: the main-flow results are clkStart_main and clkStop_main; in callback context the check of R269 comes
first. -/
theorem startAndStopResults : Obligations.StartAndStopResults := by
  unfold Obligations.StartAndStopResults
  refine fun s => ⟨fun hc => ⟨clkStart_main hc, clkStop_main hc⟩, fun hc => ⟨?_, ?_⟩⟩
  · rw [exec_clkStart, execClkStart, mainFlowOnly_callback hc]; rfl
  · rw [exec_clkStop, execClkStop, mainFlowOnly_callback hc]; rfl

/-- Settles O16: each body after the main-flow check; the once-only check of R130 splits CLK_CONFIGURE. -/
theorem configureResetCallbackResults : Obligations.ConfigureResetCallbackResults := by
  unfold Obligations.ConfigureResetCallbackResults
  refine fun s hc => ⟨fun hfirst => ?_, fun hagain => ?_, ?_, fun h => ?_⟩
  · rw [exec_clkConfigure, execClkConfigure, mainFlowOnly_main hc, hfirst, onceOnly_first, reply_main]
    exact hc
  · rw [exec_clkConfigure, execClkConfigure, mainFlowOnly_main hc, hagain, onceOnly_again, refuse_main hc]
  · rw [exec_clkReset, execClkReset, mainFlowOnly_main hc, reply_main]
    exact hc
  · rw [exec_clkSetTickCallback, execClkSetTickCallback, mainFlowOnly_main hc, reply_main]
    exact hc

/-! The tick. -/

/-- The half ticks counted, before the reduction to a word (R139). -/
def halfCount (k : Clock) : Nat := 2 * k.secondsElapsed.toNat + k.halfSecondPhase.toNat

theorem halfCount_lt (k : Clock) : halfCount k < 2 ^ 33 := by
  have hs : k.secondsElapsed.toNat < 2 ^ 32 := k.secondsElapsed.isLt
  have hp : k.halfSecondPhase.toNat < 2 := k.halfSecondPhase.isLt
  unfold halfCount
  omega

/-- The phase carries into the seconds (R136). -/
theorem halfCount_count (k : Clock) : halfCount k.count = (halfCount k + 1) % 2 ^ 33 := by
  have hs : k.secondsElapsed.toNat < 2 ^ 32 := k.secondsElapsed.isLt
  have phase : k.halfSecondPhase = 0#1 ∨ k.halfSecondPhase = 1#1 := by
    generalize k.halfSecondPhase = p
    revert p; decide
  rcases phase with h | h
  · simp [halfCount, Clock.count, h]
    omega
  · simp [halfCount, Clock.count, h]
    omega

theorem exec_evTick_running {s : State} (hr : s.clk.running = true) (hc : s.clk.cbActive = false) :
    exec .evTick s = .next (countTick s) := by
  rw [exec, execEvTick, hr, hc]
  rfl

theorem exec_evTick_stopped {s : State} (hr : s.clk.running = false) : exec .evTick s = .next s := by
  rw [exec, execEvTick, hr]
  rfl

theorem exec_evTick_overrun {s : State} (hr : s.clk.running = true) (hc : s.clk.cbActive = true) :
    exec .evTick s = .next (s.raise .tickOverrun) := by
  rw [exec, execEvTick, hr, hc]
  rfl

/-- Settles O18: countTick's closed form, and halfCount_count for its counters. -/
theorem tickCountsThenCallsBack : Obligations.TickCountsThenCallsBack := by
  unfold Obligations.TickCountsThenCallsBack
  intro s hr hc
  refine ⟨countTick s, exec_evTick_running hr hc, ?_, ?_⟩
  · have hclk : halfCount (countTick s).clk = halfCount s.clk.count := by rw [countTick_eq]; rfl
    exact hclk.trans (halfCount_count s.clk)
  · rw [countTick_eq, hc]
    by_cases h : s.clk.callback = 0 <;> simp [h]

/-! The handlers. -/

/-- PCINT's handler (R168). -/
def takePinChange (s : State) : State := { s with kp := { s.kp with pcPending := false, keyDetectedFlag := true } }

theorem exec_evPinchange (s : State) : exec .evPinchange s = .next (takePinChange s) := rfl

theorem exec_evCbDone (s : State) : exec .evCbDone s = .next s.leaveCallback := rfl

theorem countTick_takePinChange (s : State) : countTick (takePinChange s) = takePinChange (countTick s) := by
  rw [countTick_eq, countTick_eq]
  rfl

/-- The tick reads and writes nothing of the KeyScanner, whichever of its three cases it takes. -/
theorem tick_commutes_takePinChange (s : State) :
    ∃ t, exec .evTick s = .next t ∧ exec .evTick (takePinChange s) = .next (takePinChange t) := by
  cases hr : s.clk.running with
  | false => exact ⟨s, exec_evTick_stopped hr, exec_evTick_stopped hr⟩
  | true =>
    cases hc : s.clk.cbActive with
    | true => exact ⟨_, exec_evTick_overrun hr hc, exec_evTick_overrun hr hc⟩
    | false =>
      refine ⟨_, exec_evTick_running hr hc, ?_⟩
      rw [exec_evTick_running (s := takePinChange s) hr hc, countTick_takePinChange]

/-- Settles O23: each handler's own effect, and tick_commutes_takePinChange for the two orders. -/
theorem handlersGuardedAndCommute : Obligations.HandlersGuardedAndCommute := by
  unfold Obligations.HandlersGuardedAndCommute
  intro s
  obtain ⟨t, htick, hafter⟩ := tick_commutes_takePinChange s
  exact ⟨exec_evTick_stopped, exec_evTick_overrun, exec_evPinchange s, exec_evCbDone s,
    t, takePinChange s, takePinChange t, htick, exec_evPinchange s, exec_evPinchange t, hafter⟩

/-! Counting (R142). -/

/-- From s to t the Clock has counted n half ticks, still runs and is back in main flow; nothing else R142 names changes. -/
structure Counted (n : Nat) (s t : State) : Prop where
  count : halfCount t.clk = (halfCount s.clk + n) % 2 ^ 33
  configured : t.clk.configured = s.clk.configured
  running : t.clk.running = s.clk.running
  mainFlow : t.clk.cbActive = s.clk.cbActive
  kp : t.kp = s.kp
  lcd : t.lcd = s.lcd
  pin : t.pin = s.pin
  faults : t.faults = s.faults
  refused : t.refused = s.refused

theorem Counted.trans {m n : Nat} {s t u : State} (h : Counted m s t) (g : Counted n t u) : Counted (m + n) s u where
  count := by rw [g.count, h.count]; omega
  configured := g.configured.trans h.configured
  running := g.running.trans h.running
  mainFlow := g.mainFlow.trans h.mainFlow
  kp := g.kp.trans h.kp
  lcd := g.lcd.trans h.lcd
  pin := g.pin.trans h.pin
  faults := g.faults.trans h.faults
  refused := g.refused.trans h.refused

/-- A state whose Clock ticks in main flow, no fault recorded. -/
structure Ticking (s : State) : Prop where
  unfaulted : s.faulted = false
  configured : s.clk.configured = true
  running : s.clk.running = true
  mainFlow : s.clk.cbActive = false

theorem Ticking.counted {n : Nat} {s t : State} (h : Ticking s) (g : Counted n s t) : Ticking t where
  unfaulted := by rw [State.faulted, g.faults]; exact h.unfaulted
  configured := g.configured.trans h.configured
  running := g.running.trans h.running
  mainFlow := g.mainFlow.trans h.mainFlow

/-- The completion turn ends in main flow, whether or not a callback was active (R268, log 2). -/
theorem cbDoneTurn_eq (s : State) : cbDoneTurn s = .next s.leaveCallback := by
  unfold cbDoneTurn State.cbEnabled
  by_cases hc : s.clk.cbActive = true
  · rw [if_pos hc, exec_evCbDone]
  · rw [if_neg hc, State.leaveCallback, ← Bool.eq_false_iff.mpr hc]

theorem counted_tick {s : State} (h : Ticking s) (rest : List Choice) :
    Counted 1 s { (countTick s).leaveCallback with sched := rest } := by
  rw [countTick_eq]
  exact { count := halfCount_count s.clk, configured := rfl, running := rfl, mainFlow := h.mainFlow.symm, kp := rfl,
          lcd := rfl, pin := rfl, faults := rfl, refused := rfl }

theorem countTick_sched (s : State) (l : List Choice) :
    countTick { s with sched := l } = { countTick s with sched := l } := by
  rw [countTick_eq, countTick_eq]

theorem countTick_faulted (s : State) : (countTick s).faulted = s.faulted := by
  rw [countTick_eq]
  rfl

theorem step_tick {s : State} {rest : List Choice} (h : Ticking s) (hs : s.sched = .tick :: rest) :
    step s = .next { countTick s with sched := rest } := by
  have hon : State.tickEnabled { s with sched := rest } = true := by
    simp [State.tickEnabled, h.configured, h.running]
  rw [step_turn h.unfaulted hs, takeTurn, tickTurn, if_pos hon, ← countTick_sched]
  exact exec_evTick_running h.running h.mainFlow

theorem step_cbDone {s : State} {rest : List Choice} (hf : s.faulted = false) (hs : s.sched = .cbDone :: rest) :
    step s = .next { s.leaveCallback with sched := rest } := by
  rw [step_turn hf hs, takeTurn, cbDoneTurn_eq]
  rfl

/-- A tick and its callback's completion. -/
theorem runSteps_tick {s : State} {rest : List Choice} (h : Ticking s) (hs : s.sched = .tick :: .cbDone :: rest) :
    runSteps 2 s = .next { (countTick s).leaveCallback with sched := rest } := by
  rw [runSteps_succ 1 (step_tick h hs)]
  exact runSteps_one (step_cbDone ((countTick_faulted s).trans h.unfaulted) rfl)

/-- n ticks, each followed by its callback's completion. -/
theorem runSteps_ticks (n : Nat) {s : State} {rest : List Choice} (h : Ticking s)
    (hs : s.sched = (List.replicate n [Choice.tick, Choice.cbDone]).flatten ++ rest) :
    ∃ t, runSteps (2 * n) s = .next t ∧ t.sched = rest ∧ Counted n s t := by
  induction n generalizing s with
  | zero =>
    have hcount : halfCount s.clk = (halfCount s.clk + 0) % 2 ^ 33 := (Nat.mod_eq_of_lt (halfCount_lt _)).symm
    exact ⟨s, rfl, hs, hcount, rfl, rfl, rfl, rfl, rfl, rfl, rfl, rfl⟩
  | succ n ih =>
    have hfirst : Counted 1 s _ := counted_tick h ((List.replicate n [Choice.tick, Choice.cbDone]).flatten ++ rest)
    obtain ⟨t, hrun, hsched, hcounted⟩ := ih (h.counted hfirst) rfl
    refine ⟨t, ?_, hsched, Nat.add_comm 1 n ▸ hfirst.trans hcounted⟩
    rw [Nat.mul_succ, Nat.add_comm, runSteps_add 2 (2 * n) (runSteps_tick h hs)]
    exact hrun

theorem ofNat_mod_two_pow_succ (n : Nat) : BitVec.ofNat 32 n = BitVec.ofNat 32 (n % 2 ^ 33 % 2 ^ 32) := by
  apply BitVec.eq_of_toNat_eq
  rw [BitVec.toNat_ofNat, BitVec.toNat_ofNat]
  omega

/-- Settles O19: runSteps_ticks, by induction on the number of ticks, and the reads of O17. -/
theorem countingLaw : Obligations.CountingLaw := by
  unfold Obligations.CountingLaw
  intro n s rest hf hconf hrun hc hsec hphase hs
  obtain ⟨t, ht, hsched, hn⟩ := runSteps_ticks n ⟨hf, hconf, hrun, hc⟩ hs
  have hzero : halfCount s.clk = 0 := by simp [halfCount, hsec, hphase]
  have hcount : 2 * t.clk.secondsElapsed.toNat + t.clk.halfSecondPhase.toNat = n % 2 ^ 33 := by
    have := hn.count
    rwa [hzero, Nat.zero_add] at this
  have hmain : t.context = .mainFlow := context_main (hn.mainFlow.trans hc)
  have hseconds : t.clk.secondsElapsed = BitVec.ofNat 32 (n / 2) := by
    have hp : t.clk.halfSecondPhase.toNat < 2 := t.clk.halfSecondPhase.isLt
    apply BitVec.eq_of_toNat_eq
    rw [BitVec.toNat_ofNat]
    omega
  obtain ⟨readSeconds, readHalfTicks⟩ := clockReadsReturnSnapshot t
  refine ⟨t, ht, hsched, ?_, ?_, hn.kp, hn.lcd, hn.pin, hn.faults, hn.refused⟩
  · rw [readHalfTicks, hcount, hmain, ← ofNat_mod_two_pow_succ n]
    rfl
  · rw [readSeconds, hseconds, hmain]
    rfl

end Sys2Proof.Proofs

/-! PROOFS. The turns of the agents, the environment's steps and the column levels (R46, R58, R59, R166, R263 to R271). -/

namespace Sys2Proof.Proofs

open Sys2Proof Sys2Proof.Machine

/-- Settles O13. -/
theorem stuckOnceFaulted : Obligations.StuckOnceFaulted := by
  unfold Obligations.StuckOnceFaulted
  intro s hf
  rw [step, stepState, if_pos hf]

/-! HOST and CB. -/

theorem issue_of_ok {c : Command} {i : Instr} (h : decodeHost c = .ok i) (s : State) :
    issue c s = exec i { s with issued := s.issued ++ [(s.context, c)] } := by
  simp only [issue, h]

theorem hostTurn_issue {s : State} {c : Command} {cs : List Command} (hc : s.clk.cbActive = false)
    (hp : s.kp.gkPhase = .idle) (hcmd : s.cmd = c :: cs) : hostTurn s = issue c { s with cmd := cs } := by
  simp only [hostTurn, State.hostEnabled, hc, hp, hcmd, Bool.not_false, if_true]

theorem hostTurn_resume {s : State} (hc : s.clk.cbActive = false) (hp : s.kp.gkPhase = .switched) :
    hostTurn s = exec .kpdGetKey s := by
  simp only [hostTurn, State.hostEnabled, hc, hp, Bool.not_false, if_true]

theorem hostTurn_waits {s : State} (hc : s.clk.cbActive = true) : hostTurn s = .next s := by
  simp only [hostTurn, State.hostEnabled, hc, Bool.not_true, Bool.false_eq_true, if_false]

theorem cbTurn_issue {s : State} {c : Command} {cs : List Command} (hc : s.clk.cbActive = true) (hcmd : s.cbCmd = c :: cs) :
    cbTurn s = issue c { s with cbCmd := cs } := by
  simp only [cbTurn, State.cbEnabled, hc, hcmd, if_true]

/-- HOST's turn to issue: the command leaves its port. -/
theorem step_host_issue {s : State} {rest : List Choice} {c : Command} {cs : List Command} (hf : s.faulted = false)
    (hc : s.clk.cbActive = false) (hp : s.kp.gkPhase = .idle) (hs : s.sched = .host :: rest) (hcmd : s.cmd = c :: cs) :
    step s = issue c { s with sched := rest, cmd := cs } := by
  rw [step_turn hf hs, takeTurn]
  exact hostTurn_issue (s := { s with sched := rest }) hc hp hcmd

theorem step_host_resume {s : State} {rest : List Choice} (hf : s.faulted = false) (hc : s.clk.cbActive = false)
    (hp : s.kp.gkPhase = .switched) (hs : s.sched = .host :: rest) : step s = exec .kpdGetKey { s with sched := rest } := by
  rw [step_turn hf hs, takeTurn]
  exact hostTurn_resume (s := { s with sched := rest }) hc hp

theorem step_cb_issue {s : State} {rest : List Choice} {c : Command} {cs : List Command} (hf : s.faulted = false)
    (hc : s.clk.cbActive = true) (hs : s.sched = .cb :: rest) (hcmd : s.cbCmd = c :: cs) :
    step s = issue c { s with sched := rest, cbCmd := cs } := by
  rw [step_turn hf hs, takeTurn]
  exact cbTurn_issue (s := { s with sched := rest }) hc hcmd

/-- Settles O8: the turn of each issuer takes its port's head, and issue_of_ok or issue_of_error says what becomes of it. -/
theorem stepRunsDecodedInstruction : Obligations.StepRunsDecodedInstruction := by
  unfold Obligations.StepRunsDecodedInstruction
  refine fun s rest hf => ⟨fun c cs hc hp hs hcmd => ?_, fun c cs hc hs hcmd => ?_, fun x i hd hs => ?_⟩
  · have hmain : s.context = .mainFlow := context_main hc
    rw [step_host_issue hf hc hp hs hcmd, ← hmain]
    exact ⟨fun i hd => issue_of_ok hd _, fun r hd => issue_of_error hd _⟩
  · have hcallback : s.context = .callback := context_callback hc
    rw [step_cb_issue hf hc hs hcmd, ← hcallback]
    exact ⟨fun i hd => issue_of_ok hd _, fun r hd => issue_of_error hd _⟩
  · simp only [step_turn hf hs, takeTurn, busTurn, hd]

/-- Settles O9. -/
theorem hostResumesScanOrWaits : Obligations.HostResumesScanOrWaits := by
  unfold Obligations.HostResumesScanOrWaits
  refine fun s rest hf hs => ⟨fun hc hp => step_host_resume hf hc hp hs, fun hc => ?_⟩
  rw [step_turn hf hs, takeTurn]
  exact hostTurn_waits (s := { s with sched := rest }) hc

/-- Settles O10: each agent's turn is its enabling condition and its handler. -/
theorem interruptsTakenWhenEnabled : Obligations.InterruptsTakenWhenEnabled := by
  unfold Obligations.InterruptsTakenWhenEnabled
  refine fun s rest hf => ⟨fun hs => ?_, fun hs => ?_, fun hs => ?_⟩
  · rw [step_turn hf hs]; rfl
  · rw [step_turn hf hs]; rfl
  · rw [step_turn hf hs]; rfl

/-! ENV and the columns. -/

theorem exists_index {p : BitVec 2 → Prop} : (∃ r, p r) ↔ p 0 ∨ p 1 ∨ p 2 ∨ p 3 := by
  constructor
  · rintro ⟨r, h⟩
    rcases index_cases r with rfl | rfl | rfl | rfl
    exacts [.inl h, .inr (.inl h), .inr (.inr (.inl h)), .inr (.inr (.inr h))]
  · rintro (h | h | h | h) <;> exact ⟨_, h⟩

theorem columnLow_iff (pressed : Grid Bool) (row : Four Level) (c : BitVec 2) :
    columnLow pressed row c = true ↔ ∃ r : BitVec 2, Grid.at pressed r c = true ∧ Four.get row r = .low := by
  rw [exists_index]
  simp [columnLow, Grid.at, Four.get, or_assoc]

theorem colLevel_low_iff (s : State) (c : BitVec 2) : s.colLevel.getLsbD c.toNat = false ↔
    ∃ r : BitVec 2, Grid.at s.env.pressed r c = true ∧ Four.get s.pin.row r = .low := by
  rw [colLevel_bit, Bool.not_eq_false', columnLow_iff]

/-- Settles O12. -/
theorem columnLevelLaw : Obligations.ColumnLevelLaw := by
  unfold Obligations.ColumnLevelLaw
  exact colLevel_low_iff

/-- The latch after a change of the inputs or the pins (R46). -/
theorem latchChange_pcPending_iff (before : BitVec 4) (s : State) : (s.latchChange before).kp.pcPending = true ↔
    s.kp.pcPending = true ∨ (s.kp.initialised = true ∧ s.colLevel ≠ before) := by
  simp

/-- Settles O11: both turns are the model's own updates; the latch is latchChange_pcPending_iff. -/
theorem environmentSteps : Obligations.EnvironmentSteps := by
  unfold Obligations.EnvironmentSteps
  refine fun s rest hf => ⟨fun keys hs => ?_, fun ms hs => ?_⟩
  · refine ⟨pressKeys keys { s with sched := rest }, ?_, rfl, latchChange_pcPending_iff _ _⟩
    rw [step_turn hf hs, takeTurn]
  · rw [step_turn hf hs, takeTurn, passTime]

end Sys2Proof.Proofs

/-! PROOFS. The KeyScanner's commands (R160 to R172). -/

namespace Sys2Proof.Proofs

open Sys2Proof Sys2Proof.Machine

/-! KPD_INIT. -/

/-- Settles O24: the row drive in closed form; a repeat is refused by the once-only check. -/
theorem kpdInitDrivesAllRowsLow : Obligations.KpdInitDrivesAllRowsLow := by
  unfold Obligations.KpdInitDrivesAllRowsLow
  refine fun s hc => ⟨fun hfirst => ?_, fun hagain => ?_⟩
  · obtain ⟨p, hdrive⟩ := driveRowsActive_eq s
    rw [exec_kpdInit, execKpdInit, mainFlowOnly_main hc, hfirst, onceOnly_first, hdrive, reply_main]
    exact hc
  · rw [exec_kpdInit, execKpdInit, mainFlowOnly_main hc, hagain, onceOnly_again, refuse_main hc]

/-! The gate of KPD_GET_KEY. -/

theorem kpdGetKey_early {s : State} (hc : s.clk.cbActive = false) (hp : s.kp.gkPhase = .idle)
    (hi : s.kp.initialised = false) : exec .kpdGetKey s = .next (s.refuse .notInitialised) := by
  rw [exec_kpdGetKey, execKpdGetKey, mainFlowOnly_main hc]
  simp only [hp, hi, Bool.false_eq_true, if_false]

/-- A call inside the debounce window leaves only the record of its time sample (R162). -/
theorem kpdGetKey_rejected {s : State} (hc : s.clk.cbActive = false) (hp : s.kp.gkPhase = .idle)
    (hi : s.kp.initialised = true) (hlt : (s.now - s.kp.lastDebounceTimestamp).toNat < s.cfg.debounceMs) :
    exec .kpdGetKey s = .next (State.answered 0
      { s with timeSamples := s.timeSamples ++ [(s.trace.length, s.now)] }) := by
  rw [exec_kpdGetKey, execKpdGetKey, mainFlowOnly_main hc]
  simp only [hp, hi, if_true]
  rw [getKeyFirstHalf_rejected hlt, reply_main (s := s.sampleTime) hc]
  rfl

/-- Settles O25. -/
theorem getKeyGateRejects : Obligations.GetKeyGateRejects := by
  unfold Obligations.GetKeyGateRejects
  refine fun s hc hp => ⟨fun hi => ?_, kpdGetKey_rejected hc hp⟩
  rw [kpdGetKey_early hc hp hi, refuse_main hc]

/-! The row switch of a call that passes the gate. -/

/-- The first half latches a change of the column levels at either Out, even one that the second Out reverts (R46). -/
theorem getKeyFirstHalf_pcPending_iff {s m : State} (h : GatePasses s)
    (hm : m = { s with pin := { s.pin with row := Four.set s.pin.row s.kp.currentRow .high } }) :
    (getKeyFirstHalf s).kp.pcPending = true ↔
      s.kp.pcPending = true ∨ m.colLevel ≠ s.colLevel ∨ (getKeyFirstHalf s).colLevel ≠ m.colLevel := by
  have hmid : (s.sampleTime.out (.row s.kp.currentRow) true).colLevel = m.colLevel := by rw [hm]; rfl
  have hswitched : (switchRow s.sampleTime).colLevel = (getKeyFirstHalf s).colLevel := by
    rw [getKeyFirstHalf_passed h.gateOpen]; rfl
  have hlatch : (getKeyFirstHalf s).kp.pcPending = (switchRow s.sampleTime).kp.pcPending := by
    rw [getKeyFirstHalf_passed h.gateOpen]
  have hbefore : s.sampleTime.colLevel = s.colLevel := rfl
  rw [hlatch, switchRow_pcPending, sampleTime_kp, hmid, hswitched, hbefore, h.initialised]
  simp [or_assoc]

/-- The whole event list of R16 after the first half: the time sample, then the row switch and the wait. -/
theorem getKeyFirstHalf_events {s : State} (h : GatePasses s) (hrec : ∀ x ∈ s.timeSamples, x.1 ≤ s.trace.length) :
    (getKeyFirstHalf s).events = s.events ++ [.now s.now, .out (.row s.kp.currentRow) true,
      .out (.row (s.kp.currentRow + 1)) false, .wait .settle] := by
  obtain ⟨p, hpass⟩ := getKeyFirstHalf_eq h.gateOpen
  have hrec' : ∀ x ∈ s.sampleTime.timeSamples, x.1 ≤ 0 + s.trace.length := by
    intro x hx
    rw [Nat.zero_add]
    rcases List.mem_append.mp hx with hx | hx
    · exact hrec x hx
    · rw [List.mem_singleton.mp hx]
  have hsample : withNows s.sampleTime.timeSamples 0 s.trace = s.events ++ [.now s.now] := events_sampleTime s
  have hevents := withNows_append [.out (.row s.kp.currentRow) true, .out (.row (s.kp.currentRow + 1)) false, .wait .settle]
    hrec'
  rw [hsample, List.append_assoc] at hevents
  rw [hpass]
  exact hevents

theorem getKeyFirstHalf_rowSwitched {s : State} (h : GatePasses s) : RowSwitched s (getKeyFirstHalf s) :=
  kpdGetKey_rowSwitched h (kpdGetKey_firstHalf h)

/-- Settles O26: the closed form of the first half, the rules of a row switch, the latch and the event list. -/
theorem getKeySwitchesRow : Obligations.GetKeySwitchesRow := by
  unfold Obligations.GetKeySwitchesRow
  intro s hc hp hi hgate
  have h : GatePasses s := ⟨hc, hp, hi, hgate⟩
  have hrows : RowSwitched s (getKeyFirstHalf s) := getKeyFirstHalf_rowSwitched h
  refine ⟨getKeyFirstHalf s, kpdGetKey_firstHalf h, ?_, hrows.old_high, hrows.new_low, fun r => hrows.other, _, rfl,
    getKeyFirstHalf_pcPending_iff h rfl, getKeyFirstHalf_events h⟩
  obtain ⟨p, hpass⟩ := getKeyFirstHalf_eq hgate
  rw [hpass, ← row_next]
  rfl

/-! The second half. -/

theorem kpdGetKey_secondHalf {s : State} (hc : s.clk.cbActive = false) (hp : s.kp.gkPhase = .switched) :
    exec .kpdGetKey s = .next (getKeySecondHalf s) := by
  rw [exec_kpdGetKey, execKpdGetKey, mainFlowOnly_main hc]
  simp only [hp]

/-- The key found in the active row (R167). -/
theorem kpdGetKey_found {s : State} {c : BitVec 2} (hc : s.clk.cbActive = false) (hp : s.kp.gkPhase = .switched)
    (hflag : s.kp.keyDetectedFlag = true) (hlow : s.colLevel.getLsbD c.toNat = false)
    (hfirst : ∀ d : BitVec 2, d.toNat < c.toNat → s.colLevel.getLsbD d.toNat = true) :
    exec .kpdGetKey s = .next (State.answered ((Grid.at s.cfg.keymap s.kp.currentRow c).setWidth 32) { s with
      trace := s.trace ++ [.inCols s.colLevel]
      kp := { s.kp with keyDetectedFlag := false, gkPhase := .idle, lastDebounceTimestamp := s.kp.gkTime } }) := by
  have hcol : firstLowColumn (clearKeyFlag s).colLevel = some c := firstLowColumn_some hlow hfirst
  rw [kpdGetKey_secondHalf hc hp]
  simp only [getKeySecondHalf, hflag, if_true, hcol]
  rw [acceptKey, reply_main]
  · rfl
  · exact hc

/-- Settles O27: the flag and the first low column split the second half into its three cases. -/
theorem getKeySecondHalfResult : Obligations.GetKeySecondHalfResult := by
  unfold Obligations.GetKeySecondHalfResult
  refine fun s hc hp => ⟨fun hclear => ?_, fun hflag hhigh => ?_, fun c hflag => kpdGetKey_found hc hp hflag⟩
  · rw [kpdGetKey_secondHalf hc hp]
    simp only [getKeySecondHalf, hclear, Bool.false_eq_true, if_false]
    rw [reply_main (s := clearKeyFlag s) hc, clearKeyFlag, ← hclear]
    rfl
  · have hcol : firstLowColumn (clearKeyFlag s).colLevel = none := firstLowColumn_none hhigh
    rw [kpdGetKey_secondHalf hc hp]
    simp only [getKeySecondHalf, hflag, if_true, hcol]
    rw [reply_main (s := (clearKeyFlag s).sampleColumns) hc]
    rfl

/-- Settles O28: the accepted key's stamp is the call's own sample, and the gate measures from it. -/
theorem debounceLaw : Obligations.DebounceLaw := by
  unfold Obligations.DebounceLaw
  intro s t u c hc hp hflag hlow hexec huc hup hui _ hstamp hlt
  obtain ⟨first, hfirstLow, hfirst⟩ := first_low_exists hlow
  rw [kpdGetKey_found hc hp hflag hfirstLow hfirst] at hexec
  cases hexec
  have hlast : u.kp.lastDebounceTimestamp = s.kp.gkTime := hstamp
  exact kpdGetKey_rejected huc hup hui (hlast ▸ hlt)

/-! One key held (R172). -/

/-- One key is held, at row r and column c. -/
def KeyHeld (r c : BitVec 2) (s : State) : Prop := ∀ x y : BitVec 2, Grid.at s.env.pressed x y = true ↔ x = r ∧ y = c

/-- The column of the held key alone is low, while its row is driven low. -/
theorem KeyHeld.colLevel_low_iff {r c : BitVec 2} {s : State} (h : KeyHeld r c s) (d : BitVec 2) :
    s.colLevel.getLsbD d.toNat = false ↔ d = c ∧ Four.get s.pin.row r = .low := by
  rw [Proofs.colLevel_low_iff]
  constructor
  · rintro ⟨x, hpressed, hrow⟩
    obtain ⟨rfl, rfl⟩ := (h x d).mp hpressed
    exact ⟨rfl, hrow⟩
  · rintro ⟨rfl, hrow⟩
    exact ⟨r, (h r d).mpr ⟨rfl, rfl⟩, hrow⟩

/-- After the switch to the held key's row its column alone is low. -/
theorem getKeyFirstHalf_low_iff {s : State} {c : BitVec 2} (h : GatePasses s) (hheld : KeyHeld (s.kp.currentRow + 1) c s)
    (d : BitVec 2) : (getKeyFirstHalf s).colLevel.getLsbD d.toNat = false ↔ d = c := by
  have hrows : RowSwitched s (getKeyFirstHalf s) := getKeyFirstHalf_rowSwitched h
  have hheld' : KeyHeld (s.kp.currentRow + 1) c (getKeyFirstHalf s) := by
    rw [getKeyFirstHalf_passed h.gateOpen]; exact hheld
  rw [hheld'.colLevel_low_iff, ← hrows.current]
  exact and_iff_left hrows.new_low

/-- The switch to the held key's row lowers its column, which the armed detector latches. -/
theorem getKeyFirstHalf_latches_held {s : State} {c : BitVec 2} (h : GatePasses s)
    (honly : s.pin.onlyRowLow s.kp.currentRow = true) (hheld : KeyHeld (s.kp.currentRow + 1) c s) :
    (getKeyFirstHalf s).kp.pcPending = true := by
  rw [getKeyFirstHalf_pcPending_iff h rfl]
  have hbefore : ¬ s.colLevel.getLsbD c.toNat = false := by
    rw [hheld.colLevel_low_iff, (pins_onlyRowLow_iff _ _).mp honly]
    exact fun hrow => row_ne_next _ hrow.2.symm
  have hafter : (getKeyFirstHalf s).colLevel.getLsbD c.toNat = false := (getKeyFirstHalf_low_iff h hheld c).mpr rfl
  have hchanged : (getKeyFirstHalf s).colLevel ≠ s.colLevel := fun heq => hbefore (heq ▸ hafter)
  by_contra hnone
  push Not at hnone
  obtain ⟨-, hfirstOut, hsecondOut⟩ := hnone
  exact hchanged (hsecondOut.trans hfirstOut)

theorem step_pinChange {s : State} {rest : List Choice} (hf : s.faulted = false) (hpending : s.kp.pcPending = true)
    (hc : s.clk.cbActive = false) (hs : s.sched = .pinChange :: rest) :
    step s = .next { takePinChange s with sched := rest } := by
  have hon : State.pinChangeEnabled { s with sched := rest } = true := by simp [State.pinChangeEnabled, hpending, hc]
  rw [step_turn hf hs, takeTurn, pinChangeTurn, if_pos hon]
  rfl

theorem decodeHost_kpdGetKey : decodeHost ⟨0x21000000#32, []⟩ = .ok .kpdGetKey := by decide

/-- HOST issues KPD_GET_KEY and the gate passes. -/
theorem step_issue_kpdGetKey {s : State} {rest : List Choice} {cs : List Command} (hf : s.faulted = false)
    (h : GatePasses s) (hs : s.sched = .host :: rest) (hcmd : s.cmd = ⟨0x21000000#32, []⟩ :: cs) :
    step s = .next (getKeyFirstHalf
      { s with sched := rest, cmd := cs, issued := s.issued ++ [(s.context, ⟨0x21000000#32, []⟩)] }) := by
  rw [step_host_issue hf h.mainFlow h.noCall hs hcmd, issue_of_ok decodeHost_kpdGetKey]
  exact kpdGetKey_firstHalf ⟨h.mainFlow, h.noCall, h.initialised, h.gateOpen⟩

/-- The two turns after the row switch: PCINT sets the flag, and HOST resumes with the held key's column low alone. -/
theorem runSteps_resume_held {u : State} {c : BitVec 2} {rest : List Choice} (hf : u.faulted = false)
    (hc : u.clk.cbActive = false) (hp : u.kp.gkPhase = .switched) (hpending : u.kp.pcPending = true)
    (hs : u.sched = .pinChange :: .host :: rest) (hlow : ∀ d : BitVec 2, u.colLevel.getLsbD d.toNat = false ↔ d = c) :
    runSteps 2 u = .next (State.answered ((Grid.at u.cfg.keymap u.kp.currentRow c).setWidth 32) { u with
      sched := rest
      trace := u.trace ++ [.inCols u.colLevel]
      kp := { u.kp with pcPending := false, keyDetectedFlag := false, gkPhase := .idle,
                        lastDebounceTimestamp := u.kp.gkTime } }) := by
  have hfirst : ∀ d : BitVec 2, d.toNat < c.toNat → u.colLevel.getLsbD d.toNat = true := by
    intro d hd
    rw [← Bool.not_eq_false, hlow]
    rintro rfl
    exact Nat.lt_irrefl _ hd
  have hresume : step { takePinChange u with sched := .host :: rest } =
      exec .kpdGetKey { takePinChange u with sched := rest } :=
    step_host_resume (s := { takePinChange u with sched := .host :: rest }) hf hc hp rfl
  rw [runSteps_succ 1 (step_pinChange hf hpending hc hs)]
  apply runSteps_one
  rw [hresume]
  exact kpdGetKey_found (s := { takePinChange u with sched := rest }) hc hp rfl ((hlow c).mpr rfl) hfirst

/-- From the state that issues the call: its first half and the two turns after it. -/
theorem runSteps_scan_held {s : State} {c : BitVec 2} {rest : List Choice} (h : GatePasses s) (hf : s.faulted = false)
    (honly : s.pin.onlyRowLow s.kp.currentRow = true) (hheld : KeyHeld (s.kp.currentRow + 1) c s)
    (hs : s.sched = .pinChange :: .host :: rest) :
    ∃ t, runSteps 2 (getKeyFirstHalf s) = .next t ∧ t.sched = rest ∧ t.cmd = s.cmd
      ∧ t.replies = s.replies ++ [.result .mainFlow ((Grid.at s.cfg.keymap (s.kp.currentRow + 1) c).setWidth 32)]
      ∧ t.kp.currentRow = s.kp.currentRow + 1 ∧ t.kp.keyDetectedFlag = false
      ∧ t.kp.lastDebounceTimestamp = s.now ∧ t.pin.onlyRowLow (s.kp.currentRow + 1) = true := by
  have hrows : RowSwitched s (getKeyFirstHalf s) := getKeyFirstHalf_rowSwitched h
  have honly' : (getKeyFirstHalf s).pin.onlyRowLow (getKeyFirstHalf s).kp.currentRow = true :=
    ((lowAfter_of_onlyRowLow honly).switch hrows).onlyRowLow_iff.mpr (by decide)
  have hpending : (getKeyFirstHalf s).kp.pcPending = true := getKeyFirstHalf_latches_held h honly hheld
  rw [hrows.current] at honly'
  have hlow := getKeyFirstHalf_low_iff h hheld
  obtain ⟨p, hpass⟩ := getKeyFirstHalf_eq h.gateOpen
  rw [hpass] at honly' hpending hlow ⊢
  exact ⟨_, runSteps_resume_held hf h.mainFlow rfl hpending hs hlow, rfl, rfl, rfl, rfl, rfl, rfl, honly'⟩

/-- Settles O31: HOST issues the call, and runSteps_scan_held is the rest: the switch to the key's row latches the change of
its column, PCINT sets the flag, and HOST finds that column low alone. -/
theorem heldKeyFoundWhenItsRowIsActivated : Obligations.HeldKeyFoundWhenItsRowIsActivated := by
  unfold Obligations.HeldKeyFoundWhenItsRowIsActivated
  rintro s _ c rest cs hf hc hi hp honly rfl hheld hgate hs hcmd
  rw [runSteps_succ 2 (step_issue_kpdGetKey hf ⟨hc, hp, hi, hgate⟩ hs hcmd)]
  exact runSteps_scan_held ⟨hc, hp, hi, hgate⟩ hf honly hheld rfl

end Sys2Proof.Proofs
